-- ==== Sys2Proof/Word.lean ====
section
/-! DEFINITION. The two widths of the CPU12: bytes and 16-bit words (00_scope.md R4). -/

namespace Sys2Proof

/-- An 8-bit value: accumulators A and B, the CCR, a memory byte (R4). -/
abbrev Byte := BitVec 8

/-- A 16-bit value: D, X, Y, SP, PC and every CPU address (R4). -/
abbrev Word := BitVec 16

end Sys2Proof
end

