-- ==== Sys2Proof/Machine/Bits.lean ====
section
/-! DEFINITION. Byte order and extension helpers (00_scope.md R13, 20_memory.md R61). -/

namespace Sys2Proof

/-- `v[15:8]`. -/
def hiByte (v : Word) : Byte := v.extractLsb' 8 8

/-- `v[7:0]`. -/
def loByte (v : Word) : Byte := v.extractLsb' 0 8

/-- `hi : lo`, the first byte in memory being the high one (R61). -/
def joinBytes (hi lo : Byte) : Word := hi ++ lo

/-- `zext_16(v)`. -/
def zext16 (v : Byte) : Word := v.setWidth 16

/-- `sext_16(v)` of a field of any width up to 16 bits. -/
def sext16 {w : Nat} (v : BitVec w) : Word := v.signExtend 16

end Sys2Proof
end

