-- ==== Sys2Proof/Syntax.lean ====
section
/-! DEFINITION. The syntax of CPU12 instructions: one constructor of `Instr` for each mnemonic of
spec/opcode_table.json, its operand forms as arguments (30_encoding.md R108 to R130; operand classes 00_scope.md R15).
-/

namespace Sys2Proof

/-- Base registers of the indexed modes, postbyte code `rr` (R108). -/
inductive IReg where
  | x | y | sp | pc
deriving DecidableEq, Repr

/-- Base registers of the auto-modify modes; the PC cannot be one (R108). -/
inductive AReg where
  | x | y | sp
deriving DecidableEq, Repr

/-- Accumulators usable as an offset (R108, R123). -/
inductive AccOff where
  | a | b | d
deriving DecidableEq, Repr

/-- The indexed forms that fit in the postbyte alone, mode IDX (R108, R119, R122, R123): a 5-bit constant offset; auto
pre- or post-modify with the 4-bit field `n` of the postbyte; an accumulator offset. -/
inductive Idx where
  | off5 (r : IReg) (n : BitVec 5)
  | auto (r : AReg) (post : Bool) (n : BitVec 4)
  | acc (r : IReg) (o : AccOff)
deriving DecidableEq, Repr

/-- The indexed forms that are not indirect: IDX, IDX1 (9-bit offset, R120) and IDX2 (16-bit offset, R121). -/
inductive IdxX where
  | idx (i : Idx)
  | off9 (r : IReg) (n : BitVec 9)
  | off16 (r : IReg) (n : Word)
deriving DecidableEq, Repr

/-- All indexed forms: those of `IdxX`, [IDX2] and [D,IDX] (R124). -/
inductive IdxI where
  | direct (m : IdxX)
  | ind16 (r : IReg) (n : Word)
  | indD (r : IReg)
deriving DecidableEq, Repr

/-- Operand of the 8-bit read class: IMM, DIR, EXT or indexed (41_arith.md R220). -/
inductive Src8 where
  | imm (v : Byte)
  | dir (d : Byte)
  | ext (a : Word)
  | ix (m : IdxI)
deriving DecidableEq, Repr

/-- Operand of the 16-bit read class (41_arith.md R221). -/
inductive Src16 where
  | imm (v : Word)
  | dir (d : Byte)
  | ext (a : Word)
  | ix (m : IdxI)
deriving DecidableEq, Repr

/-- Memory operand with DIR, EXT and indexed forms: stores and JSR (40_load_store_move.md R161, 47_jump_sub_int.md
R523). -/
inductive Mem3 where
  | dir (d : Byte)
  | ext (a : Word)
  | ix (m : IdxI)
deriving DecidableEq, Repr

/-- Memory operand with EXT and indexed forms: the read-modify-write class, CLR, TST, JMP (41_arith.md R222). -/
inductive Mem2 where
  | ext (a : Word)
  | ix (m : IdxI)
deriving DecidableEq, Repr

/-- Operand of BSET, BCLR, BRSET, BRCLR: no indirect form (42_logic_bit.md R310, 46_branch.md R500). -/
inductive BitEa where
  | dir (d : Byte)
  | ext (a : Word)
  | ix (m : IdxX)
deriving DecidableEq, Repr

/-- Destination of CALL; the indirect forms take the page from memory (47_jump_sub_int.md R524). -/
inductive CallDest where
  | ext (a : Word) (page : Byte)
  | direct (m : IdxX) (page : Byte)
  | ind16 (r : IReg) (n : Word)
  | indD (r : IReg)
deriving DecidableEq, Repr

/-- Source of MOVB (40_load_store_move.md R195). -/
inductive MovSrc8 where
  | imm (v : Byte)
  | ext (a : Word)
  | ix (m : Idx)
deriving DecidableEq, Repr

/-- Source of MOVW (R197). -/
inductive MovSrc16 where
  | imm (v : Word)
  | ext (a : Word)
  | ix (m : Idx)
deriving DecidableEq, Repr

/-- Destination of MOVB and MOVW (R195, R197). -/
inductive MovDst where
  | ext (a : Word)
  | ix (m : Idx)
deriving DecidableEq, Repr

/-- Registers of TFR and EXG, codes 0 to 7 of the postbyte `eb`. `tmp` is code 3: TMP3 as the first operand, TMP2 as the
second (40_load_store_move.md R186). -/
inductive TReg where
  | a | b | ccr | tmp | d | x | y | sp
deriving DecidableEq, Repr

/-- Class `abc`: the 8-bit registers, sources of SEX (00_scope.md R15). -/
inductive Abc where
  | a | b | ccr
deriving DecidableEq, Repr

/-- Class `dxys`: the 16-bit registers, destinations of SEX (R15). -/
inductive Dxys where
  | d | x | y | sp
deriving DecidableEq, Repr

/-- `abc` as a register of TFR (40_load_store_move.md R188). -/
def Abc.toTReg : Abc → TReg
  | .a => .a
  | .b => .b
  | .ccr => .ccr

/-- `dxys` as a register of TFR (R188). -/
def Dxys.toTReg : Dxys → TReg
  | .d => .d
  | .x => .x
  | .y => .y
  | .sp => .sp

/-- Counters of the loop primitives, class `abdxys` (30_encoding.md R130). -/
inductive LoopReg where
  | a | b | d | x | y | sp
deriving DecidableEq, Repr

/-- The encodings of 30_encoding.md R135, which the glossary gives no entry for. -/
inductive UndefEnc where
  /-- `op xb` with an indirect postbyte: LEAS, LEAX, LEAY, BSET, BCLR, BRSET, BRCLR. -/
  | page1 (op xb : Byte)
  /-- `18 op xb` with a postbyte of more than one byte or an indirect one: MOVB, MOVW (first postbyte), TBL, ETBL. -/
  | page2 (op xb : Byte)
  /-- `18 op xb xb` with such a second postbyte: MOVB, MOVW IDX-IDX. -/
  | second (op xb1 xb2 : Byte)
  /-- `04 lb` with an undefined operation or register code. -/
  | loop (lb : Byte)
deriving DecidableEq, Repr

/-- The instructions, in the order of spec/opcode_table.json. The mnemonics that the assembler translates
(30_encoding.md R141) have constructors of their own; the decoder answers with the core instruction (R143, log 6). -/
inductive Instr where
  -- Loads and stores (40_load_store_move.md)
  | ldaa (o : Src8)
  | ldab (o : Src8)
  | ldd (o : Src16)
  | lds (o : Src16)
  | ldx (o : Src16)
  | ldy (o : Src16)
  | staa (m : Mem3)
  | stab (m : Mem3)
  | std (m : Mem3)
  | sts (m : Mem3)
  | stx (m : Mem3)
  | sty (m : Mem3)
  -- Transfers, exchanges and moves (40_load_store_move.md)
  | tab
  | tba
  | tfr (src : TReg) (dst : TReg)
  | exg (r1 : TReg) (r2 : TReg)
  | sex (src : Abc) (dst : Dxys)
  | tap
  | tpa
  | tsx
  | tsy
  | txs
  | tys
  | xgdx
  | xgdy
  | movb (src : MovSrc8) (dst : MovDst)
  | movw (src : MovSrc16) (dst : MovDst)
  -- Addition, subtraction, BCD, increment, decrement, compare, test (41_arith.md)
  | aba
  | abx
  | aby
  | adca (o : Src8)
  | adcb (o : Src8)
  | adda (o : Src8)
  | addb (o : Src8)
  | addd (o : Src16)
  | sba
  | sbca (o : Src8)
  | sbcb (o : Src8)
  | suba (o : Src8)
  | subb (o : Src8)
  | subd (o : Src16)
  | daa
  | dec (m : Mem2)
  | deca
  | decb
  | des
  | dex
  | dey
  | inc (m : Mem2)
  | inca
  | incb
  | ins
  | inx
  | iny
  | cba
  | cmpa (o : Src8)
  | cmpb (o : Src8)
  | cpd (o : Src16)
  | cps (o : Src16)
  | cpx (o : Src16)
  | cpy (o : Src16)
  | tst (m : Mem2)
  | tsta
  | tstb
  -- Logic, clear, complement, negate, bit manipulation (42_logic_bit.md)
  | anda (o : Src8)
  | andb (o : Src8)
  | eora (o : Src8)
  | eorb (o : Src8)
  | oraa (o : Src8)
  | orab (o : Src8)
  | bita (o : Src8)
  | bitb (o : Src8)
  | clr (m : Mem2)
  | clra
  | clrb
  | com (m : Mem2)
  | coma
  | comb
  | neg (m : Mem2)
  | nega
  | negb
  | bset (m : BitEa) (mask : Byte)
  | bclr (m : BitEa) (mask : Byte)
  -- Multiplication and division (43_muldiv.md)
  | mul
  | emul
  | emuls
  | ediv
  | edivs
  | fdiv
  | idiv
  | idivs
  -- Shifts and rotates (44_shift_rotate.md)
  | asl (m : Mem2)
  | lsl (m : Mem2)
  | asr (m : Mem2)
  | lsr (m : Mem2)
  | rol (m : Mem2)
  | ror (m : Mem2)
  | asla
  | lsla
  | aslb
  | lslb
  | asld
  | lsld
  | asra
  | asrb
  | lsra
  | lsrb
  | lsrd
  | rola
  | rolb
  | rora
  | rorb
  -- Fuzzy logic, minimum and maximum, multiply-accumulate, table lookup (45_fuzzy_minmax_mac_tbl.md)
  | mem
  | rev
  | revw
  | wav
  | wavr
  | maxa (m : IdxI)
  | mina (m : IdxI)
  | emaxd (m : IdxI)
  | emind (m : IdxI)
  | maxm (m : IdxI)
  | minm (m : IdxI)
  | emaxm (m : IdxI)
  | eminm (m : IdxI)
  | emacs (addr : Word)
  | tbl (m : Idx)
  | etbl (m : Idx)
  -- Branches (46_branch.md)
  | bra (rel : Byte)
  | brn (rel : Byte)
  | bhi (rel : Byte)
  | bls (rel : Byte)
  | bcc (rel : Byte)
  | bcs (rel : Byte)
  | bne (rel : Byte)
  | beq (rel : Byte)
  | bvc (rel : Byte)
  | bvs (rel : Byte)
  | bpl (rel : Byte)
  | bmi (rel : Byte)
  | bge (rel : Byte)
  | blt (rel : Byte)
  | bgt (rel : Byte)
  | ble (rel : Byte)
  | bhs (rel : Byte)
  | blo (rel : Byte)
  | lbra (rel : Word)
  | lbrn (rel : Word)
  | lbhi (rel : Word)
  | lbls (rel : Word)
  | lbcc (rel : Word)
  | lbcs (rel : Word)
  | lbne (rel : Word)
  | lbeq (rel : Word)
  | lbvc (rel : Word)
  | lbvs (rel : Word)
  | lbpl (rel : Word)
  | lbmi (rel : Word)
  | lbge (rel : Word)
  | lblt (rel : Word)
  | lbgt (rel : Word)
  | lble (rel : Word)
  | lbhs (rel : Word)
  | lblo (rel : Word)
  | brset (m : BitEa) (mask : Byte) (rel : Byte)
  | brclr (m : BitEa) (mask : Byte) (rel : Byte)
  | dbeq (cntr : LoopReg) (rel : BitVec 9)
  | dbne (cntr : LoopReg) (rel : BitVec 9)
  | tbeq (cntr : LoopReg) (rel : BitVec 9)
  | tbne (cntr : LoopReg) (rel : BitVec 9)
  | ibeq (cntr : LoopReg) (rel : BitVec 9)
  | ibne (cntr : LoopReg) (rel : BitVec 9)
  -- Jumps, subroutines, interrupts (47_jump_sub_int.md)
  | jmp (m : Mem2)
  | bsr (rel : Byte)
  | jsr (m : Mem3)
  | call (dest : CallDest)
  | rts
  | rtc
  | rti
  | swi
  | trap (tn : Byte)
  -- Load effective address and stack (48_index_stack_lea.md)
  | leas (m : IdxX)
  | leax (m : IdxX)
  | leay (m : IdxX)
  | psha
  | pshb
  | pshc
  | pshd
  | pshx
  | pshy
  | pula
  | pulb
  | pulc
  | puld
  | pulx
  | puly
  -- Condition codes, stop, wait, background, null (49_ccr_stop_misc.md)
  | andcc (mask : Byte)
  | orcc (mask : Byte)
  | clc
  | cli
  | clv
  | sec
  | sei
  | sev
  | nop
  | stop
  | wai
  | bgnd
  -- Encodings the glossary does not list (30_encoding.md R135)
  | undefined (e : UndefEnc)
deriving DecidableEq, Repr

end Sys2Proof
end

