-- ==== Sys2Proof/WellFormed.lean ====
section
/-! DEFINITION. Which instruction terms stand for an encoding. Every operand form is well formed but for the trap
number of TRAP and the encodings of 30_encoding.md R135, whose fields must name one of those encodings. -/

namespace Sys2Proof

/-- The trap numbers: $30 to $39 and $40 to $FF (30_encoding.md R105, 47_jump_sub_int.md R536). -/
def isTrapNumber (tn : Byte) : Bool :=
  (0x30 ≤ tn.toNat && tn.toNat ≤ 0x39) || 0x40 ≤ tn.toNat

/-- Postbytes `111rr011` and `111rr111`: the indirect modes (R108). -/
def isIndirectXb (xb : Byte) : Bool :=
  (xb &&& 0xE7) == 0xE3 || (xb &&& 0xE7) == 0xE7

/-- Postbytes of the $E0 to $FF group other than an accumulator offset: `111rr0zs` and `111rr111` (R135). -/
def isLongXb (xb : Byte) : Bool :=
  (xb &&& 0xE4) == 0xE0 || (xb &&& 0xE7) == 0xE7

/-- Loop postbytes with `lb[7:6] = 11` or a register code 010 or 011 (R130, R135). -/
def isUndefinedLb (lb : Byte) : Bool :=
  (lb &&& 0xC0) == 0xC0 || (lb &&& 0x06) == 0x02

/-- The fields of an encoding of R135 lie in its ranges. -/
def UndefEnc.wf : UndefEnc → Bool
  | .page1 op xb => [0x0C, 0x0D, 0x0E, 0x0F, 0x19, 0x1A, 0x1B].contains op.toNat && isIndirectXb xb
  | .page2 op xb =>
      [0x00, 0x01, 0x02, 0x05, 0x08, 0x09, 0x0A, 0x0D, 0x3D, 0x3F].contains op.toNat && isLongXb xb
  | .second op xb1 xb2 => [0x02, 0x0A].contains op.toNat && !isLongXb xb1 && isLongXb xb2
  | .loop lb => isUndefinedLb lb

/-- The term stands for an encoding. -/
def Instr.wf : Instr → Bool
  | .trap tn => isTrapNumber tn
  | .undefined e => e.wf
  | _ => true

end Sys2Proof
end

