-- ==== Sys2Proof/Decode.lean ====
section
/-! DEFINITION. The decoder, total on any bytes, and after it the encoder, both written from the opcode maps and
postbyte tables of 30_encoding.md (R100 to R143). -/

namespace Sys2Proof

/-- Why a byte string is not decoded. Every opcode and postbyte has a term (R103, R104, R108), so the only reason is
that the bytes end too early. -/
inductive DecodeError where
  | truncated
deriving DecidableEq, Repr

/-- A reader of one item from the front of a byte string, answering the bytes after it. -/
abbrev Parser (α : Type) := List Byte → Except DecodeError (α × List Byte)

/-- Reads one byte and goes on. -/
def byteThen {α : Type} (k : Byte → Parser α) : Parser α
  | [] => .error .truncated
  | b :: bs => k b bs

/-- Reads a 16-bit item, high byte first (20_memory.md R63), and goes on. -/
def imm16Then {α : Type} (k : Word → Parser α) : Parser α :=
  byteThen fun h => byteThen fun l => k (joinBytes h l)

/-- Reads an 8-bit item and goes on. -/
def imm8Then {α : Type} (k : Byte → Parser α) : Parser α := byteThen k

/-- No operand bytes (INH). -/
def inh {α : Type} (i : α) : Parser α := fun bs => .ok (i, bs)

/-- One operand byte: `ii`, `dd` or `rr`. -/
def imm8 {α : Type} (f : Byte → α) : Parser α := byteThen fun v => inh (f v)

/-- Two operand bytes: `jj kk`, `hh ll` or `qq rr`. -/
def imm16 {α : Type} (f : Word → α) : Parser α := imm16Then fun v => inh (f v)

/-! ## The indexed postbyte -/

/-- What a postbyte says before its extension bytes are read (R108). -/
inductive Xb where
  | one (i : Idx)
  | off9 (r : IReg) (sign : BitVec 1)
  | off16 (r : IReg)
  | ind16 (r : IReg)
  | indD (r : IReg)
deriving DecidableEq, Repr

/-- The base register code `rr` (R108). -/
def iregOf (c : BitVec 2) : IReg :=
  match c.toNat with
  | 0 => .x
  | 1 => .y
  | 2 => .sp
  | _ => .pc

/-- The base register code of an auto-modify postbyte; code 11 is the `111rrxxx` group and does not get here (R108). -/
def aregOf (c : BitVec 2) : AReg :=
  match c.toNat with
  | 0 => .x
  | 1 => .y
  | _ => .sp

/-- Decoding of `xb` (R108). -/
def decodeXb (xb : Byte) : Xb :=
  if xb.getLsbD 5 = false then .one (.off5 (iregOf (xb.extractLsb' 6 2)) (xb.extractLsb' 0 5))
  else if (xb.extractLsb' 5 3).toNat ≠ 7 then
    .one (.auto (aregOf (xb.extractLsb' 6 2)) (xb.getLsbD 4) (xb.extractLsb' 0 4))
  else
    let r := iregOf (xb.extractLsb' 3 2)
    match (xb.extractLsb' 0 3).toNat with
    | 0 => .off9 r 0
    | 1 => .off9 r 1
    | 2 => .off16 r
    | 3 => .ind16 r
    | 4 => .one (.acc r .a)
    | 5 => .one (.acc r .b)
    | 6 => .one (.acc r .d)
    | _ => .indD r

/-- Reads a postbyte and its extension bytes and goes on (R108, R106). -/
def idxThen {α : Type} (k : IdxI → Parser α) : Parser α := byteThen fun xb =>
  match decodeXb xb with
  | .one i => k (.direct (.idx i))
  | .off9 r s => byteThen fun ff => k (.direct (.off9 r (s ++ ff)))
  | .off16 r => imm16Then fun n => k (.direct (.off16 r n))
  | .ind16 r => imm16Then fun n => k (.ind16 r n)
  | .indD r => k (.indD r)

/-- An instruction with any indexed form. -/
def ixI {α : Type} (f : IdxI → α) : Parser α := idxThen fun m => inh (f m)

/-- Reads the postbyte of a page-1 instruction that has no indirect form; an indirect one is undefined (R135). -/
def idxXThen (op : Byte) (k : IdxX → Parser Instr) : Parser Instr := byteThen fun xb =>
  match decodeXb xb with
  | .one i => k (.idx i)
  | .off9 r s => byteThen fun ff => k (.off9 r (s ++ ff))
  | .off16 r => imm16Then fun n => k (.off16 r n)
  | .ind16 _ => inh (.undefined (.page1 op xb))
  | .indD _ => inh (.undefined (.page1 op xb))

/-- LEAS, LEAX, LEAY (48_index_stack_lea.md R565). -/
def ixX (op : Byte) (f : IdxX → Instr) : Parser Instr := idxXThen op fun m => inh (f m)

/-- Reads the postbyte of a page-2 instruction that allows one postbyte only; any other is undefined (R135). -/
def ixShortThen (op : Byte) (k : Idx → Parser Instr) : Parser Instr := byteThen fun xb =>
  match decodeXb xb with
  | .one i => k i
  | _ => inh (.undefined (.page2 op xb))

/-- TBL, ETBL (45_fuzzy_minmax_mac_tbl.md R450). -/
def ixShort (op : Byte) (f : Idx → Instr) : Parser Instr := ixShortThen op fun m => inh (f m)

/-- MOVB and MOVW IDX-IDX: source postbyte, then destination postbyte (40_load_store_move.md R195). -/
def ixIx (op : Byte) (f : Idx → Idx → Instr) : Parser Instr := byteThen fun xb1 =>
  match decodeXb xb1 with
  | .one i => byteThen fun xb2 =>
      match decodeXb xb2 with
      | .one j => inh (f i j)
      | _ => inh (.undefined (.second op xb1 xb2))
  | _ => inh (.undefined (.page2 op xb1))

/-! ## Bit manipulation and bit-condition branches: address, then mask, then offset (R106) -/

/-- Reads the operand of a bit instruction and goes on. -/
abbrev EaParser := (BitEa → Parser Instr) → Parser Instr

/-- DIR operand. -/
def dirEa : EaParser := fun k => byteThen fun d => k (.dir d)

/-- EXT operand. -/
def extEa : EaParser := fun k => imm16Then fun a => k (.ext a)

/-- `mm` after the operand. -/
def masked (ea : EaParser) (f : BitEa → Byte → Instr) : Parser Instr := ea fun m => imm8 (f m)

/-- `mm rr` after the operand. -/
def maskedRel (ea : EaParser) (f : BitEa → Byte → Byte → Instr) : Parser Instr :=
  ea fun m => byteThen fun mm => imm8 (f m mm)

/-- Indexed operand of the bit instruction with opcode `op`. -/
def ixEa (op : Byte) (fmt : EaParser → Parser Instr) : Parser Instr :=
  fmt fun k => idxXThen op fun m => k (.ix m)

/-! ## Opcodes with a form of their own -/

/-- CALL EXT: `4A hh ll pg`. -/
def callExt : Parser Instr := imm16Then fun a => imm8 fun pg => .call (.ext a pg)

/-- CALL indexed: the page follows but in the indirect forms (47_jump_sub_int.md R524). -/
def callIx : Parser Instr := idxThen fun m =>
  match m with
  | .direct m => imm8 fun pg => .call (.direct m pg)
  | .ind16 r n => inh (.call (.ind16 r n))
  | .indD r => inh (.call (.indD r))

/-- Register codes of `eb` (40_load_store_move.md R186). -/
def tregOf (c : BitVec 3) : TReg :=
  match c.toNat with
  | 0 => .a
  | 1 => .b
  | 2 => .ccr
  | 3 => .tmp
  | 4 => .d
  | 5 => .x
  | 6 => .y
  | _ => .sp

/-- Opcode $B7: bit 7 selects TFR or EXG, bit 3 is ignored (R186). -/
def tfrExg : Parser Instr := imm8 fun eb =>
  let r1 := tregOf (eb.extractLsb' 4 3)
  let r2 := tregOf (eb.extractLsb' 0 3)
  if eb.getLsbD 7 then .exg r1 r2 else .tfr r1 r2

/-- Counter codes of `lb`; 010 and 011 are undefined (R130). -/
def loopRegOf (c : BitVec 3) : Option LoopReg :=
  match c.toNat with
  | 0 => some .a
  | 1 => some .b
  | 4 => some .d
  | 5 => some .x
  | 6 => some .y
  | 7 => some .sp
  | _ => none

/-- The loop primitive that `lb[7:5]` selects (R130). -/
def loopOpOf (c : BitVec 3) : Option (LoopReg → BitVec 9 → Instr) :=
  match c.toNat with
  | 0 => some .dbeq
  | 1 => some .dbne
  | 2 => some .tbeq
  | 3 => some .tbne
  | 4 => some .ibeq
  | 5 => some .ibne
  | _ => none

/-- Opcode $04: `lb rr`, bit 4 of `lb` being the sign of the offset and bit 3 ignored (R130). -/
def loopPrim : Parser Instr := byteThen fun lb =>
  match loopOpOf (lb.extractLsb' 5 3), loopRegOf (lb.extractLsb' 0 3) with
  | some f, some r => imm8 fun rr => f r (lb.extractLsb' 4 1 ++ rr)
  | _, _ => inh (.undefined (.loop lb))

/-- An unused page-2 opcode: TRAP, two bytes (R105). -/
def trapFmt (tn : Byte) : Parser Instr := inh (.trap tn)

/-! ## The opcode maps -/

/-- Page 2, second bytes $00 to $0F (R104). -/
def page2Row0 : List (Parser Instr) :=
  [ixShortThen 0x00 fun m => imm16 (fun v => .movw (.imm v) (.ix m)),
   ixShortThen 0x01 fun m => imm16 (fun a => .movw (.ext a) (.ix m)),
   ixIx 0x02 fun m n => .movw (.ix m) (.ix n),
   imm16Then fun v => imm16 (fun a => .movw (.imm v) (.ext a)),
   imm16Then fun a => imm16 (fun e => .movw (.ext a) (.ext e)),
   ixShortThen 0x05 fun m => imm16 (fun a => .movw (.ix m) (.ext a)),
   inh .aba,
   inh .daa,
   ixShortThen 0x08 fun m => imm8 (fun v => .movb (.imm v) (.ix m)),
   ixShortThen 0x09 fun m => imm16 (fun a => .movb (.ext a) (.ix m)),
   ixIx 0x0A fun m n => .movb (.ix m) (.ix n),
   imm8Then fun v => imm16 (fun a => .movb (.imm v) (.ext a)),
   imm16Then fun a => imm16 (fun e => .movb (.ext a) (.ext e)),
   ixShortThen 0x0D fun m => imm16 (fun a => .movb (.ix m) (.ext a)),
   inh .tab,
   inh .tba]

/-- Page 2, second bytes $10 to $1F (R104). -/
def page2Row1 : List (Parser Instr) :=
  [inh .idiv,
   inh .fdiv,
   imm16 .emacs,
   inh .emuls,
   inh .edivs,
   inh .idivs,
   inh .sba,
   inh .cba,
   ixI .maxa,
   ixI .mina,
   ixI .emaxd,
   ixI .emind,
   ixI .maxm,
   ixI .minm,
   ixI .emaxm,
   ixI .eminm]

/-- Page 2, second bytes $20 to $2F (R104). -/
def page2Row2 : List (Parser Instr) :=
  [imm16 .lbra,
   imm16 .lbrn,
   imm16 .lbhi,
   imm16 .lbls,
   imm16 .lbcc,
   imm16 .lbcs,
   imm16 .lbne,
   imm16 .lbeq,
   imm16 .lbvc,
   imm16 .lbvs,
   imm16 .lbpl,
   imm16 .lbmi,
   imm16 .lbge,
   imm16 .lblt,
   imm16 .lbgt,
   imm16 .lble]

/-- Page 2, second bytes $30 to $3F (R104). -/
def page2Row3 : List (Parser Instr) :=
  [trapFmt 0x30,
   trapFmt 0x31,
   trapFmt 0x32,
   trapFmt 0x33,
   trapFmt 0x34,
   trapFmt 0x35,
   trapFmt 0x36,
   trapFmt 0x37,
   trapFmt 0x38,
   trapFmt 0x39,
   inh .rev,
   inh .revw,
   inh .wav,
   ixShort 0x3D .tbl,
   inh .stop,
   ixShort 0x3F .etbl]

/-- Page 2 of the opcode map: the 54 used positions and the trap opcodes (R104, R105). -/
def page2Table : List (Parser Instr) := page2Row0 ++ page2Row1 ++ page2Row2 ++ page2Row3

/-- The instruction after the prebyte $18; a second byte of $40 or more is a trap number (R102, R105). -/
def page2 : Parser Instr := byteThen fun b =>
  if b.toNat < 0x40 then (page2Table[b.toNat]?).getD (trapFmt b) else trapFmt b

/-- Page 1, opcodes $00 to $0F (R103). -/
def row0 : List (Parser Instr) :=
  [inh .bgnd,
   inh .mem,
   inh .iny,
   inh .dey,
   loopPrim,
   ixI (.jmp <| .ix ·),
   imm16 (.jmp <| .ext ·),
   imm8 .bsr,
   inh .inx,
   inh .dex,
   inh .rtc,
   inh .rti,
   ixEa 0x0C (masked · .bset),
   ixEa 0x0D (masked · .bclr),
   ixEa 0x0E (maskedRel · .brset),
   ixEa 0x0F (maskedRel · .brclr)]

/-- Page 1, opcodes $10 to $1F (R103). -/
def row1 : List (Parser Instr) :=
  [imm8 .andcc,
   inh .ediv,
   inh .mul,
   inh .emul,
   imm8 .orcc,
   ixI (.jsr <| .ix ·),
   imm16 (.jsr <| .ext ·),
   imm8 (.jsr <| .dir ·),
   page2,
   ixX 0x19 .leay,
   ixX 0x1A .leax,
   ixX 0x1B .leas,
   masked extEa .bset,
   masked extEa .bclr,
   maskedRel extEa .brset,
   maskedRel extEa .brclr]

/-- Page 1, opcodes $20 to $2F (R103). -/
def row2 : List (Parser Instr) :=
  [imm8 .bra,
   imm8 .brn,
   imm8 .bhi,
   imm8 .bls,
   imm8 .bcc,
   imm8 .bcs,
   imm8 .bne,
   imm8 .beq,
   imm8 .bvc,
   imm8 .bvs,
   imm8 .bpl,
   imm8 .bmi,
   imm8 .bge,
   imm8 .blt,
   imm8 .bgt,
   imm8 .ble]

/-- Page 1, opcodes $30 to $3F (R103). -/
def row3 : List (Parser Instr) :=
  [inh .pulx,
   inh .puly,
   inh .pula,
   inh .pulb,
   inh .pshx,
   inh .pshy,
   inh .psha,
   inh .pshb,
   inh .pulc,
   inh .pshc,
   inh .puld,
   inh .pshd,
   inh .wavr,
   inh .rts,
   inh .wai,
   inh .swi]

/-- Page 1, opcodes $40 to $4F (R103). -/
def row4 : List (Parser Instr) :=
  [inh .nega,
   inh .coma,
   inh .inca,
   inh .deca,
   inh .lsra,
   inh .rola,
   inh .rora,
   inh .asra,
   inh .asla,
   inh .lsrd,
   callExt,
   callIx,
   masked dirEa .bset,
   masked dirEa .bclr,
   maskedRel dirEa .brset,
   maskedRel dirEa .brclr]

/-- Page 1, opcodes $50 to $5F (R103). -/
def row5 : List (Parser Instr) :=
  [inh .negb,
   inh .comb,
   inh .incb,
   inh .decb,
   inh .lsrb,
   inh .rolb,
   inh .rorb,
   inh .asrb,
   inh .aslb,
   inh .asld,
   imm8 (.staa <| .dir ·),
   imm8 (.stab <| .dir ·),
   imm8 (.std <| .dir ·),
   imm8 (.sty <| .dir ·),
   imm8 (.stx <| .dir ·),
   imm8 (.sts <| .dir ·)]

/-- Page 1, opcodes $60 to $6F (R103). -/
def row6 : List (Parser Instr) :=
  [ixI (.neg <| .ix ·),
   ixI (.com <| .ix ·),
   ixI (.inc <| .ix ·),
   ixI (.dec <| .ix ·),
   ixI (.lsr <| .ix ·),
   ixI (.rol <| .ix ·),
   ixI (.ror <| .ix ·),
   ixI (.asr <| .ix ·),
   ixI (.asl <| .ix ·),
   ixI (.clr <| .ix ·),
   ixI (.staa <| .ix ·),
   ixI (.stab <| .ix ·),
   ixI (.std <| .ix ·),
   ixI (.sty <| .ix ·),
   ixI (.stx <| .ix ·),
   ixI (.sts <| .ix ·)]

/-- Page 1, opcodes $70 to $7F (R103). -/
def row7 : List (Parser Instr) :=
  [imm16 (.neg <| .ext ·),
   imm16 (.com <| .ext ·),
   imm16 (.inc <| .ext ·),
   imm16 (.dec <| .ext ·),
   imm16 (.lsr <| .ext ·),
   imm16 (.rol <| .ext ·),
   imm16 (.ror <| .ext ·),
   imm16 (.asr <| .ext ·),
   imm16 (.asl <| .ext ·),
   imm16 (.clr <| .ext ·),
   imm16 (.staa <| .ext ·),
   imm16 (.stab <| .ext ·),
   imm16 (.std <| .ext ·),
   imm16 (.sty <| .ext ·),
   imm16 (.stx <| .ext ·),
   imm16 (.sts <| .ext ·)]

/-- Page 1, opcodes $80 to $8F (R103). -/
def row8 : List (Parser Instr) :=
  [imm8 (.suba <| .imm ·),
   imm8 (.cmpa <| .imm ·),
   imm8 (.sbca <| .imm ·),
   imm16 (.subd <| .imm ·),
   imm8 (.anda <| .imm ·),
   imm8 (.bita <| .imm ·),
   imm8 (.ldaa <| .imm ·),
   inh .clra,
   imm8 (.eora <| .imm ·),
   imm8 (.adca <| .imm ·),
   imm8 (.oraa <| .imm ·),
   imm8 (.adda <| .imm ·),
   imm16 (.cpd <| .imm ·),
   imm16 (.cpy <| .imm ·),
   imm16 (.cpx <| .imm ·),
   imm16 (.cps <| .imm ·)]

/-- Page 1, opcodes $90 to $9F (R103). -/
def row9 : List (Parser Instr) :=
  [imm8 (.suba <| .dir ·),
   imm8 (.cmpa <| .dir ·),
   imm8 (.sbca <| .dir ·),
   imm8 (.subd <| .dir ·),
   imm8 (.anda <| .dir ·),
   imm8 (.bita <| .dir ·),
   imm8 (.ldaa <| .dir ·),
   inh .tsta,
   imm8 (.eora <| .dir ·),
   imm8 (.adca <| .dir ·),
   imm8 (.oraa <| .dir ·),
   imm8 (.adda <| .dir ·),
   imm8 (.cpd <| .dir ·),
   imm8 (.cpy <| .dir ·),
   imm8 (.cpx <| .dir ·),
   imm8 (.cps <| .dir ·)]

/-- Page 1, opcodes $A0 to $AF (R103). -/
def rowA : List (Parser Instr) :=
  [ixI (.suba <| .ix ·),
   ixI (.cmpa <| .ix ·),
   ixI (.sbca <| .ix ·),
   ixI (.subd <| .ix ·),
   ixI (.anda <| .ix ·),
   ixI (.bita <| .ix ·),
   ixI (.ldaa <| .ix ·),
   inh .nop,
   ixI (.eora <| .ix ·),
   ixI (.adca <| .ix ·),
   ixI (.oraa <| .ix ·),
   ixI (.adda <| .ix ·),
   ixI (.cpd <| .ix ·),
   ixI (.cpy <| .ix ·),
   ixI (.cpx <| .ix ·),
   ixI (.cps <| .ix ·)]

/-- Page 1, opcodes $B0 to $BF (R103). -/
def rowB : List (Parser Instr) :=
  [imm16 (.suba <| .ext ·),
   imm16 (.cmpa <| .ext ·),
   imm16 (.sbca <| .ext ·),
   imm16 (.subd <| .ext ·),
   imm16 (.anda <| .ext ·),
   imm16 (.bita <| .ext ·),
   imm16 (.ldaa <| .ext ·),
   tfrExg,
   imm16 (.eora <| .ext ·),
   imm16 (.adca <| .ext ·),
   imm16 (.oraa <| .ext ·),
   imm16 (.adda <| .ext ·),
   imm16 (.cpd <| .ext ·),
   imm16 (.cpy <| .ext ·),
   imm16 (.cpx <| .ext ·),
   imm16 (.cps <| .ext ·)]

/-- Page 1, opcodes $C0 to $CF (R103). -/
def rowC : List (Parser Instr) :=
  [imm8 (.subb <| .imm ·),
   imm8 (.cmpb <| .imm ·),
   imm8 (.sbcb <| .imm ·),
   imm16 (.addd <| .imm ·),
   imm8 (.andb <| .imm ·),
   imm8 (.bitb <| .imm ·),
   imm8 (.ldab <| .imm ·),
   inh .clrb,
   imm8 (.eorb <| .imm ·),
   imm8 (.adcb <| .imm ·),
   imm8 (.orab <| .imm ·),
   imm8 (.addb <| .imm ·),
   imm16 (.ldd <| .imm ·),
   imm16 (.ldy <| .imm ·),
   imm16 (.ldx <| .imm ·),
   imm16 (.lds <| .imm ·)]

/-- Page 1, opcodes $D0 to $DF (R103). -/
def rowD : List (Parser Instr) :=
  [imm8 (.subb <| .dir ·),
   imm8 (.cmpb <| .dir ·),
   imm8 (.sbcb <| .dir ·),
   imm8 (.addd <| .dir ·),
   imm8 (.andb <| .dir ·),
   imm8 (.bitb <| .dir ·),
   imm8 (.ldab <| .dir ·),
   inh .tstb,
   imm8 (.eorb <| .dir ·),
   imm8 (.adcb <| .dir ·),
   imm8 (.orab <| .dir ·),
   imm8 (.addb <| .dir ·),
   imm8 (.ldd <| .dir ·),
   imm8 (.ldy <| .dir ·),
   imm8 (.ldx <| .dir ·),
   imm8 (.lds <| .dir ·)]

/-- Page 1, opcodes $E0 to $EF (R103). -/
def rowE : List (Parser Instr) :=
  [ixI (.subb <| .ix ·),
   ixI (.cmpb <| .ix ·),
   ixI (.sbcb <| .ix ·),
   ixI (.addd <| .ix ·),
   ixI (.andb <| .ix ·),
   ixI (.bitb <| .ix ·),
   ixI (.ldab <| .ix ·),
   ixI (.tst <| .ix ·),
   ixI (.eorb <| .ix ·),
   ixI (.adcb <| .ix ·),
   ixI (.orab <| .ix ·),
   ixI (.addb <| .ix ·),
   ixI (.ldd <| .ix ·),
   ixI (.ldy <| .ix ·),
   ixI (.ldx <| .ix ·),
   ixI (.lds <| .ix ·)]

/-- Page 1, opcodes $F0 to $FF (R103). -/
def rowF : List (Parser Instr) :=
  [imm16 (.subb <| .ext ·),
   imm16 (.cmpb <| .ext ·),
   imm16 (.sbcb <| .ext ·),
   imm16 (.addd <| .ext ·),
   imm16 (.andb <| .ext ·),
   imm16 (.bitb <| .ext ·),
   imm16 (.ldab <| .ext ·),
   imm16 (.tst <| .ext ·),
   imm16 (.eorb <| .ext ·),
   imm16 (.adcb <| .ext ·),
   imm16 (.orab <| .ext ·),
   imm16 (.addb <| .ext ·),
   imm16 (.ldd <| .ext ·),
   imm16 (.ldy <| .ext ·),
   imm16 (.ldx <| .ext ·),
   imm16 (.lds <| .ext ·)]

/-- Page 1 of the opcode map: 256 positions, all defined (R103). -/
def page1Table : List (Parser Instr) :=
  row0 ++ row1 ++ row2 ++ row3 ++ row4 ++ row5 ++ row6 ++ row7 ++
  row8 ++ row9 ++ rowA ++ rowB ++ rowC ++ rowD ++ rowE ++ rowF

/-- DECODING (R100 to R107): the instruction that a byte string starts with, and the bytes after it; refused by name
where the bytes end before the instruction does. -/
def decode : Parser Instr := byteThen fun b => (page1Table[b.toNat]?).getD (inh .nop)

/-! ## The encoder -/

/-- Base register code `rr` (R108). -/
def IReg.code : IReg → BitVec 2
  | .x => 0
  | .y => 1
  | .sp => 2
  | .pc => 3

/-- Base register code of the auto-modify forms (R108). -/
def AReg.code : AReg → BitVec 2
  | .x => 0
  | .y => 1
  | .sp => 2

/-- Accumulator code `aa` (R108). -/
def AccOff.code : AccOff → BitVec 2
  | .a => 0
  | .b => 1
  | .d => 2

/-- A bit as a one-bit field. -/
def bit1 (b : Bool) : BitVec 1 := BitVec.ofBool b

/-- The postbyte `111rrxxx` (R108). -/
def xbE (r : IReg) (low : BitVec 3) : Byte := (7 : BitVec 3) ++ r.code ++ low

/-- Postbyte of the forms without extension bytes (R108). -/
def encIdx : Idx → Byte
  | .off5 r n => r.code ++ (0 : BitVec 1) ++ n
  | .auto r post n => r.code ++ (1 : BitVec 1) ++ bit1 post ++ n
  | .acc r o => xbE r ((1 : BitVec 1) ++ o.code)

/-- Postbyte and extension bytes of the forms that are not indirect (R108). -/
def encIdxX : IdxX → List Byte
  | .idx i => [encIdx i]
  | .off9 r n => [xbE r ((0 : BitVec 2) ++ n.extractLsb' 8 1), n.extractLsb' 0 8]
  | .off16 r n => [xbE r 2, hiByte n, loByte n]

/-- Postbyte and extension bytes of every indexed form (R108). -/
def encIdxI : IdxI → List Byte
  | .direct m => encIdxX m
  | .ind16 r n => [xbE r 3, hiByte n, loByte n]
  | .indD r => [xbE r 7]

/-- Read class, 8-bit: IMM `op`, DIR `op + $10`, indexed `op + $20`, EXT `op + $30` (41_arith.md R220). -/
def encSrc8 (op : Byte) : Src8 → List Byte
  | .imm v => [op, v]
  | .dir d => [op + 0x10, d]
  | .ext a => [op + 0x30, hiByte a, loByte a]
  | .ix m => (op + 0x20) :: encIdxI m

/-- Read class, 16-bit (41_arith.md R221). -/
def encSrc16 (op : Byte) : Src16 → List Byte
  | .imm v => [op, hiByte v, loByte v]
  | .dir d => [op + 0x10, d]
  | .ext a => [op + 0x30, hiByte a, loByte a]
  | .ix m => (op + 0x20) :: encIdxI m

/-- Operand with DIR, indexed and EXT opcodes (40_load_store_move.md R161, 47_jump_sub_int.md R523). -/
def encMem3 (dir ix ext : Byte) : Mem3 → List Byte
  | .dir d => [dir, d]
  | .ext a => [ext, hiByte a, loByte a]
  | .ix m => ix :: encIdxI m

/-- Operand with indexed and EXT opcodes (41_arith.md R222). -/
def encMem2 (ix ext : Byte) : Mem2 → List Byte
  | .ext a => [ext, hiByte a, loByte a]
  | .ix m => ix :: encIdxI m

/-- Opcode and operand of a bit instruction: DIR `4C + k`, EXT `1C + k`, indexed `0C + k` (42_logic_bit.md R310,
46_branch.md R500). -/
def encBitEa (k : Byte) : BitEa → List Byte
  | .dir d => [0x4C + k, d]
  | .ext a => [0x1C + k, hiByte a, loByte a]
  | .ix m => (0x0C + k) :: encIdxX m

/-- CALL (47_jump_sub_int.md R524). -/
def encCall : CallDest → List Byte
  | .ext a pg => [0x4A, hiByte a, loByte a, pg]
  | .direct m pg => 0x4B :: (encIdxX m ++ [pg])
  | .ind16 r n => 0x4B :: encIdxI (.ind16 r n)
  | .indD r => 0x4B :: encIdxI (.indD r)

/-- MOVB; an indexed destination's postbyte comes before the source bytes (40_load_store_move.md R195). -/
def encMovb : MovSrc8 → MovDst → List Byte
  | .imm v, .ix m => [0x18, 0x08, encIdx m, v]
  | .ext a, .ix m => [0x18, 0x09, encIdx m, hiByte a, loByte a]
  | .ix m, .ix n => [0x18, 0x0A, encIdx m, encIdx n]
  | .imm v, .ext e => [0x18, 0x0B, v, hiByte e, loByte e]
  | .ext a, .ext e => [0x18, 0x0C, hiByte a, loByte a, hiByte e, loByte e]
  | .ix m, .ext e => [0x18, 0x0D, encIdx m, hiByte e, loByte e]

/-- MOVW (40_load_store_move.md R197). -/
def encMovw : MovSrc16 → MovDst → List Byte
  | .imm v, .ix m => [0x18, 0x00, encIdx m, hiByte v, loByte v]
  | .ext a, .ix m => [0x18, 0x01, encIdx m, hiByte a, loByte a]
  | .ix m, .ix n => [0x18, 0x02, encIdx m, encIdx n]
  | .imm v, .ext e => [0x18, 0x03, hiByte v, loByte v, hiByte e, loByte e]
  | .ext a, .ext e => [0x18, 0x04, hiByte a, loByte a, hiByte e, loByte e]
  | .ix m, .ext e => [0x18, 0x05, encIdx m, hiByte e, loByte e]

/-- Register codes of `eb` (40_load_store_move.md R186). -/
def TReg.code : TReg → BitVec 3
  | .a => 0
  | .b => 1
  | .ccr => 2
  | .tmp => 3
  | .d => 4
  | .x => 5
  | .y => 6
  | .sp => 7

/-- The postbyte `eb`, bit 3 written 0 (R186, R190). -/
def encEb (exchange : BitVec 1) (r1 r2 : TReg) : Byte :=
  exchange ++ r1.code ++ (0 : BitVec 1) ++ r2.code

/-- Counter codes of `lb` (R130). -/
def LoopReg.code : LoopReg → BitVec 3
  | .a => 0
  | .b => 1
  | .d => 4
  | .x => 5
  | .y => 6
  | .sp => 7

/-- `04 lb rr` (R130). -/
def encLoop (op : BitVec 3) (r : LoopReg) (rel : BitVec 9) : List Byte :=
  [0x04, op ++ rel.extractLsb' 8 1 ++ (0 : BitVec 1) ++ r.code, rel.extractLsb' 0 8]

/-- The undefined encodings, up to the byte that makes them so (R135). -/
def encUndef : UndefEnc → List Byte
  | .page1 op xb => [op, xb]
  | .page2 op xb => [0x18, op, xb]
  | .second op xb1 xb2 => [0x18, op, xb1, xb2]
  | .loop lb => [0x04, lb]

/-- The bytes of an instruction (R103, R104, R106, R130, R141). -/
def encode : Instr → List Byte
  | .ldaa o => encSrc8 0x86 o
  | .ldab o => encSrc8 0xC6 o
  | .ldd o => encSrc16 0xCC o
  | .lds o => encSrc16 0xCF o
  | .ldx o => encSrc16 0xCE o
  | .ldy o => encSrc16 0xCD o
  | .staa m => encMem3 0x5A 0x6A 0x7A m
  | .stab m => encMem3 0x5B 0x6B 0x7B m
  | .std m => encMem3 0x5C 0x6C 0x7C m
  | .sts m => encMem3 0x5F 0x6F 0x7F m
  | .stx m => encMem3 0x5E 0x6E 0x7E m
  | .sty m => encMem3 0x5D 0x6D 0x7D m
  | .tab => [0x18, 0x0E]
  | .tba => [0x18, 0x0F]
  | .tfr src dst => [0xB7, encEb 0 src dst]
  | .exg r1 r2 => [0xB7, encEb 1 r1 r2]
  | .sex src dst => [0xB7, encEb 0 src.toTReg dst.toTReg]
  | .tap => [0xB7, 0x02]
  | .tpa => [0xB7, 0x20]
  | .tsx => [0xB7, 0x75]
  | .tsy => [0xB7, 0x76]
  | .txs => [0xB7, 0x57]
  | .tys => [0xB7, 0x67]
  | .xgdx => [0xB7, 0xC5]
  | .xgdy => [0xB7, 0xC6]
  | .movb src dst => encMovb src dst
  | .movw src dst => encMovw src dst
  | .aba => [0x18, 0x06]
  | .abx => [0x1A, 0xE5]
  | .aby => [0x19, 0xED]
  | .adca o => encSrc8 0x89 o
  | .adcb o => encSrc8 0xC9 o
  | .adda o => encSrc8 0x8B o
  | .addb o => encSrc8 0xCB o
  | .addd o => encSrc16 0xC3 o
  | .sba => [0x18, 0x16]
  | .sbca o => encSrc8 0x82 o
  | .sbcb o => encSrc8 0xC2 o
  | .suba o => encSrc8 0x80 o
  | .subb o => encSrc8 0xC0 o
  | .subd o => encSrc16 0x83 o
  | .daa => [0x18, 0x07]
  | .dec m => encMem2 0x63 0x73 m
  | .deca => [0x43]
  | .decb => [0x53]
  | .des => [0x1B, 0x9F]
  | .dex => [0x09]
  | .dey => [0x03]
  | .inc m => encMem2 0x62 0x72 m
  | .inca => [0x42]
  | .incb => [0x52]
  | .ins => [0x1B, 0x81]
  | .inx => [0x08]
  | .iny => [0x02]
  | .cba => [0x18, 0x17]
  | .cmpa o => encSrc8 0x81 o
  | .cmpb o => encSrc8 0xC1 o
  | .cpd o => encSrc16 0x8C o
  | .cps o => encSrc16 0x8F o
  | .cpx o => encSrc16 0x8E o
  | .cpy o => encSrc16 0x8D o
  | .tst m => encMem2 0xE7 0xF7 m
  | .tsta => [0x97]
  | .tstb => [0xD7]
  | .anda o => encSrc8 0x84 o
  | .andb o => encSrc8 0xC4 o
  | .eora o => encSrc8 0x88 o
  | .eorb o => encSrc8 0xC8 o
  | .oraa o => encSrc8 0x8A o
  | .orab o => encSrc8 0xCA o
  | .bita o => encSrc8 0x85 o
  | .bitb o => encSrc8 0xC5 o
  | .clr m => encMem2 0x69 0x79 m
  | .clra => [0x87]
  | .clrb => [0xC7]
  | .com m => encMem2 0x61 0x71 m
  | .coma => [0x41]
  | .comb => [0x51]
  | .neg m => encMem2 0x60 0x70 m
  | .nega => [0x40]
  | .negb => [0x50]
  | .bset m mask => encBitEa 0x00 m ++ [mask]
  | .bclr m mask => encBitEa 0x01 m ++ [mask]
  | .mul => [0x12]
  | .emul => [0x13]
  | .emuls => [0x18, 0x13]
  | .ediv => [0x11]
  | .edivs => [0x18, 0x14]
  | .fdiv => [0x18, 0x11]
  | .idiv => [0x18, 0x10]
  | .idivs => [0x18, 0x15]
  | .asl m => encMem2 0x68 0x78 m
  | .lsl m => encMem2 0x68 0x78 m
  | .asr m => encMem2 0x67 0x77 m
  | .lsr m => encMem2 0x64 0x74 m
  | .rol m => encMem2 0x65 0x75 m
  | .ror m => encMem2 0x66 0x76 m
  | .asla => [0x48]
  | .lsla => [0x48]
  | .aslb => [0x58]
  | .lslb => [0x58]
  | .asld => [0x59]
  | .lsld => [0x59]
  | .asra => [0x47]
  | .asrb => [0x57]
  | .lsra => [0x44]
  | .lsrb => [0x54]
  | .lsrd => [0x49]
  | .rola => [0x45]
  | .rolb => [0x55]
  | .rora => [0x46]
  | .rorb => [0x56]
  | .mem => [0x01]
  | .rev => [0x18, 0x3A]
  | .revw => [0x18, 0x3B]
  | .wav => [0x18, 0x3C]
  | .wavr => [0x3C]
  | .maxa m => [0x18, 0x18] ++ encIdxI m
  | .mina m => [0x18, 0x19] ++ encIdxI m
  | .emaxd m => [0x18, 0x1A] ++ encIdxI m
  | .emind m => [0x18, 0x1B] ++ encIdxI m
  | .maxm m => [0x18, 0x1C] ++ encIdxI m
  | .minm m => [0x18, 0x1D] ++ encIdxI m
  | .emaxm m => [0x18, 0x1E] ++ encIdxI m
  | .eminm m => [0x18, 0x1F] ++ encIdxI m
  | .emacs addr => [0x18, 0x12, hiByte addr, loByte addr]
  | .tbl m => [0x18, 0x3D, encIdx m]
  | .etbl m => [0x18, 0x3F, encIdx m]
  | .bra rel => [0x20, rel]
  | .brn rel => [0x21, rel]
  | .bhi rel => [0x22, rel]
  | .bls rel => [0x23, rel]
  | .bcc rel => [0x24, rel]
  | .bcs rel => [0x25, rel]
  | .bne rel => [0x26, rel]
  | .beq rel => [0x27, rel]
  | .bvc rel => [0x28, rel]
  | .bvs rel => [0x29, rel]
  | .bpl rel => [0x2A, rel]
  | .bmi rel => [0x2B, rel]
  | .bge rel => [0x2C, rel]
  | .blt rel => [0x2D, rel]
  | .bgt rel => [0x2E, rel]
  | .ble rel => [0x2F, rel]
  | .bhs rel => [0x24, rel]
  | .blo rel => [0x25, rel]
  | .lbra rel => [0x18, 0x20, hiByte rel, loByte rel]
  | .lbrn rel => [0x18, 0x21, hiByte rel, loByte rel]
  | .lbhi rel => [0x18, 0x22, hiByte rel, loByte rel]
  | .lbls rel => [0x18, 0x23, hiByte rel, loByte rel]
  | .lbcc rel => [0x18, 0x24, hiByte rel, loByte rel]
  | .lbcs rel => [0x18, 0x25, hiByte rel, loByte rel]
  | .lbne rel => [0x18, 0x26, hiByte rel, loByte rel]
  | .lbeq rel => [0x18, 0x27, hiByte rel, loByte rel]
  | .lbvc rel => [0x18, 0x28, hiByte rel, loByte rel]
  | .lbvs rel => [0x18, 0x29, hiByte rel, loByte rel]
  | .lbpl rel => [0x18, 0x2A, hiByte rel, loByte rel]
  | .lbmi rel => [0x18, 0x2B, hiByte rel, loByte rel]
  | .lbge rel => [0x18, 0x2C, hiByte rel, loByte rel]
  | .lblt rel => [0x18, 0x2D, hiByte rel, loByte rel]
  | .lbgt rel => [0x18, 0x2E, hiByte rel, loByte rel]
  | .lble rel => [0x18, 0x2F, hiByte rel, loByte rel]
  | .lbhs rel => [0x18, 0x24, hiByte rel, loByte rel]
  | .lblo rel => [0x18, 0x25, hiByte rel, loByte rel]
  | .brset m mask rel => encBitEa 0x02 m ++ [mask, rel]
  | .brclr m mask rel => encBitEa 0x03 m ++ [mask, rel]
  | .dbeq cntr rel => encLoop 0 cntr rel
  | .dbne cntr rel => encLoop 1 cntr rel
  | .tbeq cntr rel => encLoop 2 cntr rel
  | .tbne cntr rel => encLoop 3 cntr rel
  | .ibeq cntr rel => encLoop 4 cntr rel
  | .ibne cntr rel => encLoop 5 cntr rel
  | .jmp m => encMem2 0x05 0x06 m
  | .bsr rel => [0x07, rel]
  | .jsr m => encMem3 0x17 0x15 0x16 m
  | .call dest => encCall dest
  | .rts => [0x3D]
  | .rtc => [0x0A]
  | .rti => [0x0B]
  | .swi => [0x3F]
  | .trap tn => [0x18, tn]
  | .leas m => 0x1B :: encIdxX m
  | .leax m => 0x1A :: encIdxX m
  | .leay m => 0x19 :: encIdxX m
  | .psha => [0x36]
  | .pshb => [0x37]
  | .pshc => [0x39]
  | .pshd => [0x3B]
  | .pshx => [0x34]
  | .pshy => [0x35]
  | .pula => [0x32]
  | .pulb => [0x33]
  | .pulc => [0x38]
  | .puld => [0x3A]
  | .pulx => [0x30]
  | .puly => [0x31]
  | .andcc mask => [0x10, mask]
  | .orcc mask => [0x14, mask]
  | .clc => [0x10, 0xFE]
  | .cli => [0x10, 0xEF]
  | .clv => [0x10, 0xFD]
  | .sec => [0x14, 0x01]
  | .sei => [0x14, 0x10]
  | .sev => [0x14, 0x02]
  | .nop => [0xA7]
  | .stop => [0x18, 0x3E]
  | .wai => [0x3E]
  | .bgnd => [0x00]
  | .undefined e => encUndef e

/-- The core instruction that a translated mnemonic stands for (R141, R143); every other instruction is itself. -/
def Instr.canon : Instr → Instr
  | .sex src dst => .tfr src.toTReg dst.toTReg
  | .tap => .tfr .a .ccr
  | .tpa => .tfr .ccr .a
  | .tsx => .tfr .sp .x
  | .tsy => .tfr .sp .y
  | .txs => .tfr .x .sp
  | .tys => .tfr .y .sp
  | .xgdx => .exg .d .x
  | .xgdy => .exg .d .y
  | .abx => .leax (.idx (.acc .x .b))
  | .aby => .leay (.idx (.acc .y .b))
  | .des => .leas (.idx (.off5 .sp 31))
  | .ins => .leas (.idx (.off5 .sp 1))
  | .lsl m => .asl m
  | .lsla => .asla
  | .lslb => .aslb
  | .lsld => .asld
  | .bhs rel => .bcc rel
  | .blo rel => .bcs rel
  | .lbhs rel => .lbcc rel
  | .lblo rel => .lbcs rel
  | .clc => .andcc 0xFE
  | .cli => .andcc 0xEF
  | .clv => .andcc 0xFD
  | .sec => .orcc 0x01
  | .sei => .orcc 0x10
  | .sev => .orcc 0x02
  | i => i

/-- Byte `k` of an instruction whose bits are `w`, numbered as spec/opcode_table.json numbers them. -/
def tableByte (w k : Nat) : Byte := BitVec.ofNat 8 (w / 2 ^ (8 * k))

/-- The six bytes, the longest instruction (R101), that the table word `w` stands for: its `nbits` bits, zeros above. -/
def tableBytes (nbits w : Nat) : List Byte :=
  let w := w % 2 ^ nbits
  [tableByte w 0, tableByte w 1, tableByte w 2, tableByte w 3, tableByte w 4, tableByte w 5]

/-- The instruction the decoder reads from a table word. -/
def decodeTableWord (nbits w : Nat) : Option Instr :=
  match decode (tableBytes nbits w) with
  | .ok (i, _) => some i
  | .error _ => none

end Sys2Proof
end

