-- ==== Sys2Proof/Config.lean ====
section
/-! DEFINITION. The parameters of the model (00_scope.md R5, 92_eei_decisions.md "Parameters") and the free values: the
results that the spec leaves undefined (93_implementation_defined.md, "any value"). -/

namespace Sys2Proof

/-- The two implementations of the CPU12 (R2, R6). -/
inductive Variant where
  | m68hc12 | hcs12
deriving DecidableEq, Repr

/-- The operating modes that the reset value of ENBDM depends on (60_exceptions.md R698, R701). -/
inductive Mode where
  | normal | specialSingleChip | peripheral
deriving DecidableEq, Repr

/-- What a region of the CPU address space holds, in the classes of Table 10-1 (20_memory.md R72). The first four are
on-chip registers. A `device` register is one whose behaviour the spec does not give (R73, log 8). `vectors` is memory
that holds exception vectors, "write it if it is RAM" (60_exceptions.md R660). -/
inductive Resource where
  | ppageReg | dpageReg | epageReg | device
  | vectors (writable : Bool)
  | ram | eeprom | flash
deriving DecidableEq, Repr

/-- A block of CPU addresses `first` to `last`, both included, held by one resource (R71, R72). Where the resource is
storage, `origin` numbers the on-chip byte that `first` names, and the bytes after it follow; two blocks may name the
same bytes. -/
structure Region where
  first  : Word
  last   : Word
  res    : Resource
  origin : Word
deriving DecidableEq, Repr

/-- The window that an external access goes through (20_memory.md R75 to R78). -/
inductive Path where
  | program | data | extra | unpaged
deriving DecidableEq, Repr

/-- A block of external memory: it answers accesses at CPU addresses `cpuFirst` to `cpuLast` whose external address (up
to 22 bits, R75 to R78) is `first` to `last`, through one of the windows `paths`, as a device's chip selects tell them
apart (R78, R79). `origin` numbers the external byte that `first` names. `writable` is false for ROM or FLASH. -/
structure ExternalBlock where
  cpuFirst : Word
  cpuLast  : Word
  paths    : List Path
  first    : Nat
  last     : Nat
  writable : Bool
  origin   : Nat
deriving DecidableEq, Repr

/-- The parameters of R5, fixed for a machine. `nvectors` is determined by `variant` (60_exceptions.md R660).
`end_condition` is read by no step: it is an argument of `Machine.run` (70_reset_and_hazards.md R733). -/
structure Config where
  /-- `variant` (R6). -/
  variant : Variant
  /-- The width of PPAGE that the device asks for; `Config.ppageBits` is the width it has (R5, R6). -/
  ppageWidth : Nat
  /-- Whether the data and extra windows exist (M68HC12 devices only, 20_memory.md R76, R77). -/
  dataWindows : Bool
  /-- `memory_map`: the on-chip resources (20_memory.md R72). With `external` it gives any function from CPU address,
  window and page to a byte of storage, a register or nothing, block by block. -/
  map : List Region
  /-- `memory_map`: expanded and other external memory (R72, R75 to R78). -/
  external : List ExternalBlock
  /-- The operating mode the MCU is reset in (60_exceptions.md R701). -/
  mode : Mode
  /-- `interrupt sources`: the maskable sources beside IRQ, each by its vector address (60_exceptions.md R661, R683). -/
  sources : List Word
  /-- `interrupt sources`: the vector of the real-time interrupt, if the device has one (60_exceptions.md R668). -/
  rtiVector : Option Word
  /-- `interrupt sources`: the vector of the promoted source, if any (R668). -/
  promoted : Option Word
  /-- `interrupt sources`: maskable sources other than IRQ that can end a STOP (93_implementation_defined.md U23). -/
  stopWake : List Word
deriving DecidableEq, Repr

/-- What a free value stands for, so that two draws of one instruction need not agree. -/
inductive Draw where
  | fetch      -- an instruction byte read where there is no memory (U15, U32)
  | operand    -- a data byte read where there is no memory (U15)
  | second     -- the second operand of an instruction with two (U15)
  | third      -- the third operand (EMACS, REVW's weight) (U15)
  | fourth     -- the low word of EMACS's accumulator (U15)
  | pointer    -- the pointer of an indirect mode (U15)
  | stack      -- a stack byte read where there is no memory (U15, R674)
  | stack2 | stack3 | stack4 | stack5
               -- the later pulls of an instruction with several (U15, R674)
  | vector     -- a vector read where there is no memory (U32)
  | page       -- PPAGE when there is none (U17)
  | stored     -- the value stored by a store of a pre-modified register (U13)
  | flags      -- flags marked `?` (U1 to U6, U8, U10)
  | result     -- an undefined result register (U7, U9, U10)
  | remainder  -- a second undefined result register (U9)
  | temporary  -- TMP3 as read by TFR or EXG (U11)
  | temporary2 -- TMP2 as read by EXG (U11)
  | resetD | resetX | resetY | resetSp | resetFlags | resetTmp1 | resetTmp2 | resetTmp3 | resetPpage | resetPages
  | resetBdmInstr | resetBdmStatus | resetBdmShift | resetBdmAddr | resetBdmCcr
               -- registers after a reset event (U18, U29)
  | bdmRom     -- a byte of the BDM ROM or of $FF07 to $FF1F (91_not_in_source.md N33)
  | entry1 | entry2 | entry3
               -- TMP1, TMP2, TMP3 after an exception is entered (U12)
  | firmware1 | firmware2 | firmware3
               -- TMP1, TMP2, TMP3 after the BDM firmware has run (U30, D19)
  | bgnd       -- the byte that the firmware compares with a BGND opcode, where there is no memory (U15)
  | host       -- a byte read by a BDM command where there is no memory (U15)
  | hostOther  -- the don't-care half of the shift register after a byte read by a BDM command (R705)
deriving DecidableEq, Repr

/-- FREE VALUE (93_implementation_defined.md, "any value"): an 8-bit value that nothing constrains, for draw number `n`,
what it stands for, and the address or register concerned. It has no body, so no proof can know it (log 5). -/
opaque Config.freeByte : Nat → Draw → Word → Byte

/-- FREE VALUE: a 16-bit value that nothing constrains (log 5). -/
opaque Config.freeWord : Nat → Draw → Word

namespace Config

/-- The largest PPAGE: 6 bits on HCS12, 8 on M68HC12 (R6 (d)). -/
def maxPpageBits (c : Config) : Nat :=
  match c.variant with
  | .m68hc12 => 8
  | .hcs12 => 6

/-- `ppage_bits` (R5, R6): 0 to the largest of the variant; 0 means that there is no PPAGE register (10_state.md R37).
-/
def ppageBits (c : Config) : Nat := min c.ppageWidth c.maxPpageBits

/-- The lowest address of the vector table, $10000 − 2 × `nvectors` (R660). -/
def vectorBase (c : Config) : Word :=
  match c.variant with
  | .m68hc12 => 0xFFC0
  | .hcs12 => 0xFF00

/-- The parameters of `State.reset` (log 3): an HCS12 with a 6-bit PPAGE, RAM everywhere, no sources beyond IRQ. -/
def standard : Config where
  variant := .hcs12
  ppageWidth := 6
  dataWindows := false
  map := [⟨0x0000, 0xFFFF, .ram, 0x0000⟩]
  external := []
  mode := .normal
  sources := []
  rtiVector := none
  promoted := none
  stopWake := []

end Config
end Sys2Proof
end

