-- ==== Sys2Proof/Machine/State.lean ====
section
/-! DEFINITION. The state of the machine (10_state.md, 60_exceptions.md R700 to R704, 20_memory.md), the reasons a
step can stop, and the state after reset. INVENTORY.md lists every field with its rule and reset value. -/

namespace Sys2Proof.Machine

/-- The CPU12 has no fault: "There is nothing else" after the list of exceptions, all of which are taken
(60_exceptions.md R652). No constructor, so no step ever faults; safe. -/
inductive Fault where
deriving DecidableEq, Repr

/-- Why a step has no meaning. Each reason but the first is one that the spec itself refuses
(93_implementation_defined.md). -/
inductive Refusal where
  /-- Raised by `exec` for an instruction without a meaning. Safe: nothing is claimed of it. -/
  | notModelled (mnemonic : String)
  /-- Raised by executing an encoding of 30_encoding.md R135, for which the source gives no effect and no trap (U14).
  Safe: hardware does something, the model claims nothing. -/
  | undefinedEncoding
  /-- Raised by the fetch of a byte that was stored to while it may have been in the queue (20_memory.md R84, D5, U21).
  Safe: the spec says that the store may or may not be seen. -/
  | storeIntoPrefetchWindow
  /-- Raised by a REV or REVW whose rule list overlaps the fuzzy outputs it writes: the element that it would read next
  is one of them, or one of them is an element that it has read (45_fuzzy_minmax_mac_tbl.md R412, D14, U22). Safe. -/
  | ruleListOverlapsOutputs
  /-- Raised by a BDM word command at an odd address (60_exceptions.md R705, U27). Safe. -/
  | misalignedBdmWord
  /-- Raised by a BDM command opcode outside Tables 8-1 and 8-2 (60_exceptions.md R706, U28). Safe. -/
  | unknownBdmCommand
  /-- Raised by a firmware command while BDM is not active: "The CPU must be in background mode to execute commands that
  are implemented in the BDM ROM" (60_exceptions.md R706). Safe. -/
  | bdmNotActive
  /-- Would be raised by a byte string that ends before its instruction does; the fetch always supplies six bytes, so no
  step raises it. Safe. -/
  | truncatedInstruction
deriving DecidableEq, Repr

/-- The page-window controls of the integration module (20_memory.md R75 to R77). -/
structure Windows where
  pwen  : Bool
  dwen  : Bool
  ewen  : Bool
  ewdir : Bool
deriving DecidableEq, Repr

/-- The run state (10_state.md R42). -/
inductive RunState where
  | running | waiting | stopped | bdmActive
deriving DecidableEq, Repr

/-- Which interruptible instruction stands between two passes of its loop (45_fuzzy_minmax_mac_tbl.md R412 to R417). In
`rev` and `revw` the PC is the address of the instruction, in `wav` that of its $3C byte: the return addresses of R414
and R417. -/
inductive Progress where
  | none | rev | revw | wav
deriving DecidableEq, Repr

/-- MODEL: where a byte is kept, for the hazards of stores into the queue (D5, log 23) and into a rule list (D14, log
17): storage, by its key, a page register, or what else the map names or leaves out at a CPU address. -/
inductive Slot where
  | cell (key : Nat)
  | ppage | dpage | epage
  | other (a : Word)
deriving DecidableEq, Repr

/-- MODEL: what an interrupted REV or REVW knows of its list and its outputs, until it is resumed (D14, log 15): the
registers that the interrupt stacked and that the evaluation stands in (45_fuzzy_minmax_mac_tbl.md R414), the return
address, A, X, Y and V, then SP before it, and the bytes. -/
structure RuleRecord where
  pc       : Word
  a        : Byte
  x        : Word
  y        : Word
  v        : Bool
  sp       : Word
  outputs  : List Slot
  consumed : List Slot
deriving DecidableEq, Repr

/-- The interrupt requests the CPU sees (10_state.md R41, 60_exceptions.md R661): the XIRQ level and the asserted
maskable requests, each by its vector address; $FFF2 is IRQ. -/
structure Pins where
  xirq     : Bool
  requests : List Word
deriving DecidableEq, Repr

/-- The background debug registers (60_exceptions.md R701 to R704), a pending activation (R700) and whether a TRACE1 is
in progress (R706). -/
structure Bdm where
  instr   : Byte
  status  : Byte
  shift   : Word
  addr    : Word
  ccr     : Byte
  request : Bool
  tracing : Bool
deriving DecidableEq, Repr

/-- The four sources of reset (60_exceptions.md R690). -/
inductive ResetSource where
  | powerOn | external | clockMonitor | cop
deriving DecidableEq, Repr

/-- Tags on the next opcode: a breakpoint that executes SWI, one that enters BDM (60_exceptions.md R715, R716), a BDM
tag made through the pins, which needs ENTAG (R719). -/
inductive TagKind where
  | swi | bdm | pin
deriving DecidableEq, Repr

/-- MODEL: one store of the CPU: a byte or a word at an address, or PPAGE written by CALL or RTC (20_memory.md R62, R68).
-/
inductive Store where
  | byte (a : Word) (v : Byte)
  | word (a v : Word)
  | page (v : Byte)
deriving DecidableEq, Repr

/-- MODEL: memory and the page registers as they were before a BDM command that has come between two accesses of an
instruction; the accesses below `reads` in the order of `accessRank` were made before it. -/
structure Earlier where
  reads : Nat
  mem   : List Host.Cell
  ppage : Byte
  dpage : Byte
  epage : Byte
deriving DecidableEq, Repr

/-- MODEL: a point between two bus accesses of the CPU inside one instruction or exception entry (20_memory.md R68,
R70): `stores` stores are made, and of the reads, which come before the stores, those below `reads` in the order of
`accessRank`; after a store all are. -/
structure Cut where
  reads  : Nat
  stores : Nat
deriving DecidableEq, Repr

/-- A whole BDM command (60_exceptions.md R705 to R707): opcode, address, data in. -/
structure Command where
  op   : Byte
  addr : Word
  data : Word
deriving DecidableEq, Repr

/-- What the outside world can do at a boundary (70_reset_and_hazards.md R733), or inside an instruction. RESET has no
level: asserting and releasing it are one event of one step, and R733's "held in reset" is a reset event in every
step, not a run state (DESIGN CHOICE, log 20). -/
inductive Event where
  /-- The XIRQ pin is asserted or negated (60_exceptions.md R682). -/
  | xirq (asserted : Bool)
  /-- A maskable request with this vector is asserted or negated (R661, R683). -/
  | request (vector : Word) (asserted : Bool)
  /-- A reset (R690). -/
  | reset (src : ResetSource)
  /-- The integration module's window controls change (20_memory.md R75 to R77). -/
  | windows (w : Windows)
  /-- The next opcode is tagged (60_exceptions.md R716). -/
  | tag (k : TagKind)
  /-- A forced breakpoint asks for BDM (R716). -/
  | forceBdm
  /-- A whole BDM command (R705, R706): opcode, address, data in. -/
  | command (op : Byte) (addr data : Word)
  /-- A BDM command whose access comes between two bus accesses of the instruction, or exception entry, that this step
  makes (60_exceptions.md R705, 20_memory.md R70, R81; log 38). -/
  | commandWithin (cut : Cut) (c : Command)
  /-- A reset inside the instruction, or exception entry, that this step would make, after `stores` of its stores (R690,
  D18, U31). -/
  | resetWithin (stores : Nat) (src : ResetSource)
  /-- The serial interface times out and clears the command register (R702). -/
  | hostTimeout
  /-- MODEL: an interruptible instruction that runs in this step stops at its interrupt point after `passes` list
  elements, so that the next step's events arrive there (45_fuzzy_minmax_mac_tbl.md R410). -/
  | interruptAfter (passes : Nat)
deriving DecidableEq, Repr

/-- Everything the spec gives the machine, as plain data. -/
structure State where
  /-- Accumulators (10_state.md R21); D is `a : b` (R22). -/
  a : Byte
  b : Byte
  /-- Index registers (R23). -/
  x : Word
  y : Word
  /-- Stack pointer (R24). -/
  sp : Word
  /-- Program counter (R25). While a meaning runs it holds PCnext (30_encoding.md R107). -/
  pc : Word
  /-- Condition codes S X H I N Z V C, bits 7 to 0 (R26). -/
  ccr : Byte
  /-- Temporary registers (R39). -/
  tmp1 : Word
  tmp2 : Word
  tmp3 : Word
  /-- Page registers (R37, R38). DPAGE and EPAGE have the 8 bits of the MC68HC812A4 on every device that has them,
  though other derivatives may have more or fewer (DESIGN CHOICE, log 32). -/
  ppage : Byte
  dpage : Byte
  epage : Byte
  /-- Window controls (20_memory.md R75 to R77). -/
  windows : Windows
  /-- The I-clear delay (70_reset_and_hazards.md R740). -/
  iDelay : Bool
  /-- The run state (10_state.md R42). -/
  run : RunState
  /-- The interruptible instruction in progress (45_fuzzy_minmax_mac_tbl.md R414, R417). -/
  progress : Progress
  /-- MODEL: the fuzzy outputs that the REV or REVW in progress has written, or the last one (D14). -/
  outputs : List Slot
  /-- MODEL: the rule-list bytes that it has read (D14). -/
  consumed : List Slot
  /-- MODEL: the records of interrupted REV and REVW, the newest first (D14). -/
  suspended : List RuleRecord
  /-- The bytes within the prefetch window that were stored to, or put under another page, since the last change of flow
  (20_memory.md R84, D5). -/
  stale : List Slot
  /-- Interrupt requests (10_state.md R41). -/
  pins : Pins
  /-- Background debug registers (10_state.md R43). -/
  bdm : Bdm
  /-- MODEL: the outside events still to come, one list for each step (D23, log 25). -/
  schedule : List (List Event)
  /-- MODEL: how many passes an interruptible instruction may make in this step; none: to completion (log 15). -/
  budget : Option Nat
  /-- MODEL: the stores of the CPU in this step, the newest first (log 38). -/
  stores : List Store
  /-- MODEL: what the early reads of this step saw, where a BDM command came between two accesses (log 38). -/
  earlier : Option Earlier
  /-- MODEL: the number of free values' draws so far; every free value is applied to it (log 5). -/
  free : Nat
  /-- Memory: (key, byte) pairs, keys strictly rising, no $00 listed (log 1). Keys below $10000 are on-chip
  bytes, the others $10000 plus the number of an external byte (20_memory.md R72, `Region.origin`,
  `ExternalBlock.origin`). -/
  mem : List Host.Cell
  /-- The parameters (00_scope.md R5); no step changes them. -/
  cfg : Config
deriving DecidableEq, Repr

/-- What a step or a meaning answers. -/
abbrev Res := Host.Outcome State Fault Refusal

/-- The machine right after reset (10_state.md R45): S, X and I set, running, BDM off, windows off. The registers the
spec gives no value are 0 (DESIGN CHOICE, unsafe, log 2); the PC is the word at $FFFE of a memory in which nothing is
listed (log 1, log 4); the parameters are log 3's. -/
def State.reset : State where
  a := 0
  b := 0
  x := 0
  y := 0
  sp := 0
  pc := 0
  ccr := 0xD0
  tmp1 := 0
  tmp2 := 0
  tmp3 := 0
  ppage := 0
  dpage := 0
  epage := 0
  windows := ⟨false, false, false, false⟩
  iDelay := false
  run := .running
  progress := .none
  outputs := []
  consumed := []
  suspended := []
  stale := []
  pins := ⟨false, []⟩
  bdm := ⟨0, 0, 0, 0, 0, false, false⟩
  schedule := []
  budget := none
  stores := []
  earlier := none
  free := 0
  mem := []
  cfg := Config.standard

end Sys2Proof.Machine
end

