-- ==== Sys2Proof/Machine/Flags.lean ====
section
/-! DEFINITION. The condition codes (10_state.md R26 to R35) and the flag computations of the arithmetic, shift and
rotate rules (41_arith.md R223, 44_shift_rotate.md R371). -/

namespace Sys2Proof.Machine

/-! ## Bits of the CCR -/

/-- S, bit 7. -/
def State.flagS (s : State) : Bool := s.ccr.getLsbD 7
/-- X, bit 6. -/
def State.flagX (s : State) : Bool := s.ccr.getLsbD 6
/-- H, bit 5. -/
def State.flagH (s : State) : Bool := s.ccr.getLsbD 5
/-- I, bit 4. -/
def State.flagI (s : State) : Bool := s.ccr.getLsbD 4
/-- N, bit 3. -/
def State.flagN (s : State) : Bool := s.ccr.getLsbD 3
/-- Z, bit 2. -/
def State.flagZ (s : State) : Bool := s.ccr.getLsbD 2
/-- V, bit 1. -/
def State.flagV (s : State) : Bool := s.ccr.getLsbD 1
/-- C, bit 0. -/
def State.flagC (s : State) : Bool := s.ccr.getLsbD 0

/-- `r` with bit `i` made `v`. -/
def putBit (r : Byte) (i : Nat) (v : Bool) : Byte :=
  if v then r ||| ((1 : Byte) <<< i) else r &&& ~~~((1 : Byte) <<< i)

/-- Writes Z. -/
def putZ (r : Byte) (z : Bool) : Byte := putBit r 2 z

/-- Writes N and Z. -/
def putNZ (r : Byte) (n z : Bool) : Byte := putZ (putBit r 3 n) z

/-- Writes N, Z and V. -/
def putNZV (r : Byte) (n z v : Bool) : Byte := putBit (putNZ r n z) 1 v

/-- Writes N, Z and C. -/
def putNZC (r : Byte) (n z c : Bool) : Byte := putBit (putNZ r n z) 0 c

/-- Writes N, Z, V and C. -/
def putNZVC (r : Byte) (n z v c : Bool) : Byte := putBit (putNZV r n z v) 0 c

/-- Writes H, N, Z, V and C. -/
def putHNZVC (r : Byte) (h n z v c : Bool) : Byte := putBit (putNZVC r n z v c) 5 h

/-- The X-bit protection rule (10_state.md R35): a value loaded into the CCR cannot set X. -/
def protectX (old v : Byte) : Byte := putBit v 6 (v.getLsbD 6 && old.getLsbD 6)

/-! ## Results with their flags -/

/-- A result and the flags of its operation. -/
structure Alu (w : Nat) where
  r : BitVec w
  n : Bool
  z : Bool
  v : Bool
  c : Bool
deriving DecidableEq, Repr

/-- `NZ(R)`: N is the top bit, Z says that all bits are 0 (00_scope.md R14). -/
def isNeg {w : Nat} (r : BitVec w) : Bool := r.msb

/-- Z of `NZ(R)`. -/
def isZero {w : Nat} (r : BitVec w) : Bool := r == 0

/-- `add8`, `add16` with a carry in (41_arith.md R223). -/
def addc {w : Nat} (a m : BitVec w) (cin : Bool) : Alu w :=
  let r := a + m + (BitVec.ofBool cin).setWidth w
  { r := r
    n := isNeg r
    z := isZero r
    v := (a.msb && m.msb && !r.msb) || (!a.msb && !m.msb && r.msb)
    c := (a.msb && m.msb) || (m.msb && !r.msb) || (!r.msb && a.msb) }

/-- H of `add8` (R223). -/
def halfCarry (a m r : Byte) : Bool :=
  (a.getLsbD 3 && m.getLsbD 3) || (m.getLsbD 3 && !r.getLsbD 3) || (!r.getLsbD 3 && a.getLsbD 3)

/-- `sub8`, `sub16` with a borrow in (41_arith.md R223). -/
def subb {w : Nat} (a m : BitVec w) (bin : Bool) : Alu w :=
  let r := a - m - (BitVec.ofBool bin).setWidth w
  { r := r
    n := isNeg r
    z := isZero r
    v := (a.msb && !m.msb && !r.msb) || (!a.msb && m.msb && r.msb)
    c := (!a.msb && m.msb) || (m.msb && r.msb) || (r.msb && !a.msb) }

/-- A shift or rotate with result `r` and shifted-out bit `c`: V = N ⊕ C after the shift (44_shift_rotate.md R371). -/
def shifted {w : Nat} (r : BitVec w) (c : Bool) : Alu w :=
  { r := r, n := isNeg r, z := isZero r, v := isNeg r != c, c := c }

/-- ASL = LSL (R375). -/
def shiftLeft {w : Nat} (m : BitVec w) : Alu w := shifted (m <<< 1) m.msb

/-- ASR: the top bit is held (R380). -/
def shiftRightArith {w : Nat} (m : BitVec w) : Alu w := shifted (m.sshiftRight 1) (m.getLsbD 0)

/-- LSR (R383). -/
def shiftRightLogic {w : Nat} (m : BitVec w) : Alu w := shifted (m >>> 1) (m.getLsbD 0)

/-- ROL: C goes into bit 0 (R390). -/
def rotateLeft (m : Byte) (c : Bool) : Alu 8 := shifted (m.extractLsb' 0 7 ++ BitVec.ofBool c) m.msb

/-- ROR: C goes into bit 7 (R393). -/
def rotateRight (m : Byte) (c : Bool) : Alu 8 := shifted (BitVec.ofBool c ++ m.extractLsb' 1 7) (m.getLsbD 0)

/-- NEG: V when the result is $80, C unless it is $00 (42_logic_bit.md R306). -/
def negate (m : Byte) : Alu 8 :=
  let r := 0 - m
  { r := r, n := isNeg r, z := isZero r, v := r == 0x80, c := r != 0x00 }

/-- COM: V = 0, C = 1 (R303). -/
def complement (m : Byte) : Alu 8 :=
  let r := ~~~m
  { r := r, n := isNeg r, z := isZero r, v := false, c := true }

/-- CLR: N = 0, Z = 1, V = 0, C = 0 (R300). -/
def cleared : Alu 8 := { r := 0, n := false, z := true, v := false, c := false }

/-- TST: N and Z of the operand, V = 0, C = 0 (41_arith.md R270). -/
def tested (m : Byte) : Alu 8 := { r := m, n := isNeg m, z := isZero m, v := false, c := false }

/-- N, Z, V and C of an operation put into the CCR. -/
def Alu.putFlags {w : Nat} (x : Alu w) (ccr : Byte) : Byte := putNZVC ccr x.n x.z x.v x.c

/-! ## Undefined flags -/

/-- The free bit `i` of this execution's undefined flags (93_implementation_defined.md U1). -/
def freeFlag (s : State) (i : Nat) : Bool := (Config.freeWord s.free .flags).getLsbD i

end Sys2Proof.Machine
end

