-- ==== Sys2Proof/Machine/Memory.lean ====
section
/-! DEFINITION. Memory as a list of cells in one canonical form, the memory map (20_memory.md R72 to R78), and reads and
writes of bytes and words through it (R62). -/

namespace Sys2Proof.Machine

/-! ## The list of cells -/

/-- What an unlisted key reads as: $00 (DESIGN CHOICE, unsafe, log 1). -/
def unlisted : Byte := 0

/-- The byte under a key. -/
def memGet : List Host.Cell → Nat → Byte
  | [], _ => unlisted
  | (k, v) :: m, key => if k = key then v else memGet m key

/-- Adds a cell, keeping the keys rising. -/
def memInsert : List Host.Cell → Nat → Byte → List Host.Cell
  | [], key, v => [(key, v)]
  | (k, w) :: m, key, v => if key < k then (key, v) :: (k, w) :: m else (k, w) :: memInsert m key v

/-- Removes a key. -/
def memErase : List Host.Cell → Nat → List Host.Cell
  | [], _ => []
  | (k, w) :: m, key => if k = key then memErase m key else (k, w) :: memErase m key

/-- Writes a byte under a key; writing what an unlisted key reads as removes the entry. -/
def memSet (m : List Host.Cell) (key : Nat) (v : Byte) : List Host.Cell :=
  if v = unlisted then memErase m key else memInsert (memErase m key) key v

/-- Every key is above `lo`, keys rise strictly, and no entry equals what an unlisted key reads as. -/
def memWfFrom (lo : Nat) : List Host.Cell → Bool
  | [] => true
  | (k, v) :: m => decide (lo ≤ k) && decide (v ≠ unlisted) && memWfFrom (k + 1) m

/-- The canonical form of memory. -/
def Memory.wf (m : List Host.Cell) : Bool := memWfFrom 0 m

/-! ## The memory map -/

/-- What an access reaches (R72): a byte of storage, a page register, a device register, or nothing. -/
inductive Target where
  | cell (key : Nat) (writable : Bool)
  | ppage | dpage | epage
  | device
  | nothing
deriving DecidableEq, Repr

/-- Precedence of Table 10-1, 1 highest (R72). Place 2 is also the BDM ROM's, which no program access sees (see
`locateInMap`). -/
def precedence : Resource → Nat
  | .ppageReg | .dpageReg | .epageReg | .device => 1
  | .vectors _ => 2
  | .ram => 3
  | .eeprom => 4
  | .flash => 5

/-- The region whose resource is the one of highest precedence that holds an address (R72). Of two of one class, for
which the spec names no winner, the first in the list is taken (DESIGN CHOICE, log 32). -/
def regionAt : List Region → Word → Option Region
  | [], _ => none
  | r :: rs, a =>
      if r.first ≤ a ∧ a ≤ r.last then
        match regionAt rs a with
        | some q => if precedence q.res < precedence r.res then some q else some r
        | none => some r
      else regionAt rs a

/-- The resource that is reached at an address. -/
def resourceAt (rs : List Region) (a : Word) : Option Resource := (regionAt rs a).map Region.res

/-- The key in `State.mem` of the on-chip byte that a region of storage holds at an address. -/
def onChipKey (r : Region) (a : Word) : Nat := (r.origin + (a - r.first)).toNat

/-- The block of external memory that answers an access at CPU address `a` through a window with external address `x`.
Of two the first in the list is taken (DESIGN CHOICE, log 32). -/
def externalAt : List ExternalBlock → Path → Word → Nat → Option ExternalBlock
  | [], _, _, _ => none
  | e :: es, p, a, x =>
      if (e.cpuFirst ≤ a ∧ a ≤ e.cpuLast) ∧ p ∈ e.paths ∧ (e.first ≤ x ∧ x ≤ e.last) then some e
      else externalAt es p a x

/-- Whether the data and extra windows exist: some M68HC12 devices only (R76, R77). -/
def hasDataWindows (c : Config) : Bool := c.dataWindows && c.variant == .m68hc12

/-- PPAGE keeps its low `ppage_bits` bits (10_state.md R37, D6). -/
def pageBits (bits : Nat) (v : Byte) : Byte := BitVec.ofNat 8 (v.toNat % 2 ^ bits)

/-- External address of an access in the program window $8000 to $BFFF: PPAGE over CPU_ADDR[13:0] (R75). -/
def programWindowAddress (c : Config) (ppage : Byte) (a : Nat) : Nat :=
  (if c.ppageBits ≤ 6 then ppage.toNat % 64 else ppage.toNat) * 0x4000 + a % 0x4000

/-- External address of an access outside every enabled window (R78). A PPAGE of 6 bits or fewer has the 1-megabyte
map on an M68HC12 too (DEDUCED, log 32). Between $8000 and $BFFF with the window disabled, which R78 leaves out of
that map, ADDR[19:16] are 1 over CPU_ADDR[15:0]: page $3E, the bytes of $4000 to $7FFF (DESIGN CHOICE, log 32). -/
def unpagedAddress (c : Config) (a : Nat) : Nat :=
  if c.ppageBits = 0 then a
  else if 6 < c.ppageBits then 0x3F0000 + a
  else if a < 0x4000 then 0x3D * 0x4000 + a
  else if a < 0x8000 then 0x3E * 0x4000 + a % 0x4000
  else if a < 0xC000 then 0xF0000 + a
  else 0x3F * 0x4000 + a % 0x4000

/-- The enabled window that a CPU address is in (R75 to R77). -/
def pathOf (s : State) (addr : Word) : Path :=
  let a := addr.toNat
  if 0 < s.cfg.ppageBits ∧ s.windows.pwen ∧ 0x8000 ≤ a ∧ a < 0xC000 then .program
  else if hasDataWindows s.cfg ∧ s.windows.dwen ∧ 0x7000 ≤ a ∧ a < 0x8000 then .data
  else if hasDataWindows s.cfg ∧ s.windows.ewen ∧
      ((a < 0x0400 ∧ s.windows.ewdir) ∨ (0x0400 ≤ a ∧ a < 0x0800 ∧ !s.windows.ewdir)) then .extra
  else .unpaged

/-- `EXT_ADDR` of a CPU address (R75 to R78). -/
def externalAddress (s : State) (addr : Word) : Nat :=
  let a := addr.toNat
  match pathOf s addr with
  | .program => programWindowAddress s.cfg s.ppage a
  | .data => 0x300000 + s.dpage.toNat * 0x1000 + a % 0x1000
  | .extra => 0x3C0000 + s.epage.toNat * 0x400 + a % 0x400
  | .unpaged => unpagedAddress s.cfg a

/-- The block of external memory that an access at an address reaches. -/
def externalBlockAt (s : State) (a : Word) : Option ExternalBlock :=
  externalAt s.cfg.external (pathOf s a) a (externalAddress s a)

/-- The key in `State.mem` of the byte that a block of external memory holds at an external address. -/
def externalKey (e : ExternalBlock) (x : Nat) : Nat := 0x10000 + e.origin + (x - e.first)

/-- What an address reaches where a region of the map holds it. -/
def regionTarget (s : State) (r : Region) (a : Word) : Target :=
  match r.res with
  | .ppageReg => if s.cfg.ppageBits = 0 then .nothing else .ppage
  | .dpageReg => if hasDataWindows s.cfg then .dpage else .nothing
  | .epageReg => if hasDataWindows s.cfg then .epage else .nothing
  | .device => .device
  | .vectors w => .cell (onChipKey r a) w
  | .ram => .cell (onChipKey r a) true
  | .eeprom => .cell (onChipKey r a) true
  | .flash => .cell (onChipKey r a) false

/-- The memory map: what a CPU address reaches (R72 to R78), `memory_map` of 00_scope.md R5. -/
def locate (s : State) (a : Word) : Target :=
  match regionAt s.cfg.map a with
  | some r => regionTarget s r a
  | none =>
      match externalBlockAt s a with
      | some e => .cell (externalKey e (externalAddress s a)) e.writable
      | none => .nothing

/-- The byte a target holds; none where the spec gives no value (R73). -/
def targetByte (s : State) : Target → Option Byte
  | .cell k _ => some (memGet s.mem k)
  | .ppage => some s.ppage
  | .dpage => some s.dpage
  | .epage => some s.epage
  | .device => none
  | .nothing => none

/-- The byte an address holds, where the spec gives it a value. -/
def byteAt (s : State) (a : Word) : Option Byte := targetByte s (locate s a)

/-- The memory key an address reaches, if it reaches storage. -/
def keyAt (s : State) (a : Word) : Option Nat :=
  match locate s a with
  | .cell k _ => some k
  | _ => none

/-- Where the byte at an address is kept. -/
def slotAt (s : State) (a : Word) : Slot :=
  match locate s a with
  | .cell k _ => .cell k
  | .ppage => .ppage
  | .dpage => .dpage
  | .epage => .epage
  | .device => .other a
  | .nothing => .other a

/-! ## Reads -/

/-- The order of the read accesses inside one instruction, that of the letters of its cycle code and of the steps of its
formula (R68): the instruction's own bytes, the vector of an exception, pulls, the pointer of an indirect mode, the
operands, PPAGE (`g`), and the firmware's check for BGND. No instruction reads after it has stored. What is no access of
the CPU comes last, after every `Cut`. -/
def accessRank : Draw → Nat
  | .fetch => 0
  | .vector => 1
  | .stack => 2
  | .stack2 => 3
  | .stack3 => 4
  | .stack4 => 5
  | .stack5 => 6
  | .pointer => 7
  | .operand => 8
  | .second => 9
  | .third => 10
  | .fourth => 11
  | .page => 12
  | .bgnd => 13
  | _ => 14

/-- `Cut.reads` after every read. -/
def allReads : Nat := 14

/-- The state as a read sees it: one made before a BDM command that came inside the instruction sees memory and the page
registers as they were (60_exceptions.md R705, R81). -/
def seenBy (s : State) (d : Draw) : State :=
  match s.earlier with
  | some e => if accessRank d < e.reads then { s with mem := e.mem, ppage := e.ppage, dpage := e.dpage, epage := e.epage }
              else s
  | none => s

/-- `MemRead(a, 1)` (R62); where there is no value, a free byte (R73, D3). -/
def read8 (s : State) (d : Draw) (a : Word) : Byte := (byteAt (seenBy s d) a).getD (Config.freeByte s.free d a)

/-- `MemRead(a, 2)`: the byte at `a` is the high one; `a + 1` wraps (R62, R64). One access, so both bytes are read
before or after a BDM command (R68, log 38). -/
def read16 (s : State) (d : Draw) (a : Word) : Word := joinBytes (read8 s d a) (read8 s d (a + 1))

/-! ## Writes -/

/-- The 8 bytes after the instruction that runs, which the queue may hold: D5's window and R84's last sentence. The
eighth byte is in it, although 70_reset_and_hazards.md R742 and the words of D5 say that a byte "8 or more bytes
beyond" the last one is seen (DESIGN CHOICE, safe, log 23). -/
def prefetchAddresses (s : State) : List Word := [0, 1, 2, 3, 4, 5, 6, 7].map fun k => s.pc + BitVec.ofNat 16 k

/-- Notes a write to a byte of the prefetch window: `s` is the state before the write and `t` after it. -/
def noteStore (s t : State) (q : Slot) : State :=
  if ((prefetchAddresses s).map (slotAt s)).contains q then { t with stale := q :: t.stale } else t

/-- Notes the bytes of the prefetch window under which a change from `s` to `t` has put another page. -/
def noteRemap (s t : State) : State :=
  { t with stale := ((prefetchAddresses s).filter fun a => slotAt t a != slotAt s a).map (slotAt t) ++ t.stale }

/-- Notes what a write to a target does to the prefetch window; a page register may stand in it itself. A write to
read-only memory, a device or nothing changes no byte that the fetch relies on (log 23). -/
def noteStale (s t : State) : Target → State
  | .cell k true => noteStore s t (.cell k)
  | .cell _ false => t
  | .ppage => noteRemap s (noteStore s t .ppage)
  | .dpage => noteRemap s (noteStore s t .dpage)
  | .epage => noteRemap s (noteStore s t .epage)
  | .device => t
  | .nothing => t

/-- Writes a byte to a target; read-only memory, devices and nothing keep what they are (R73, D3, log 8). -/
def setTarget (s : State) (v : Byte) : Target → State
  | .cell k true => { s with mem := memSet s.mem k v }
  | .cell _ false => s
  | .ppage => { s with ppage := pageBits s.cfg.ppageBits v }
  | .dpage => { s with dpage := v }
  | .epage => { s with epage := v }
  | .device => s
  | .nothing => s

/-- A write of a byte to a target, with its effect on the queue. -/
def writeTarget (s : State) (t : Target) (v : Byte) : State := noteStale s (setTarget s v t) t

/-- `MemWrite(a, 1, v)` (R62). -/
def write8 (s : State) (a : Word) (v : Byte) : State := writeTarget s (locate s a) v

/-- `MemWrite(a, 2, v)`: one access, so both bytes are located before either is written (R62, R68). -/
def write16 (s : State) (a : Word) (v : Word) : State :=
  writeTarget (writeTarget s (locate s a) (hiByte v)) (locate s (a + 1)) (loByte v)

/-! ## Stores of the CPU -/

/-- A store is remembered, in the order of R68. -/
def logStore (s : State) (e : Store) : State := { s with stores := e :: s.stores }

/-- The CPU writes a byte. -/
def store8 (s : State) (a : Word) (v : Byte) : State := logStore (write8 s a v) (.byte a v)

/-- The CPU writes a word. -/
def store16 (s : State) (a : Word) (v : Word) : State := logStore (write16 s a v) (.word a v)

/-- PPAGE written through the CPU's dedicated line: its low `ppage_bits` bits (10_state.md R37, D6). -/
def setPpage (s : State) (v : Byte) : State := { s with ppage := pageBits s.cfg.ppageBits v }

/-- A store made again. -/
def applyStore (s : State) : Store → State
  | .byte a v => write8 s a v
  | .word a v => write16 s a v
  | .page v => setPpage s v

/-- Stores made again, in order. -/
def applyStores (s : State) (es : List Store) : State := es.foldl applyStore s

end Sys2Proof.Machine
end

