-- ==== Sys2Proof/Machine/Ops.lean ====
section
/-! DEFINITION. The named operations over registers and stack that the meanings share, taking an exception
(60_exceptions.md R670) and returning from one (47_jump_sub_int.md R530). -/

namespace Sys2Proof.Machine

/-! ## Registers -/

/-- D is A : B (10_state.md R22). -/
def State.d (s : State) : Word := joinBytes s.a s.b

/-- Writes A. -/
def State.setA (s : State) (v : Byte) : State := { s with a := v }
/-- Writes B. -/
def State.setB (s : State) (v : Byte) : State := { s with b := v }
/-- Writes both accumulators (R22). -/
def State.setD (s : State) (v : Word) : State := { s with a := hiByte v, b := loByte v }
/-- Writes X. -/
def State.setX (s : State) (v : Word) : State := { s with x := v }
/-- Writes Y. -/
def State.setY (s : State) (v : Word) : State := { s with y := v }
/-- Writes SP. -/
def State.setSp (s : State) (v : Word) : State := { s with sp := v }
/-- Writes the CCR; what instructions load from data goes through `loadCcr`. -/
def State.setCcr (s : State) (v : Byte) : State := { s with ccr := v }
/-- Loads the CCR from data, under the X-bit protection rule (10_state.md R35). -/
def State.loadCcr (s : State) (v : Byte) : State := s.setCcr (protectX s.ccr v)

/-- N and Z from a byte, V = 0. -/
def State.nzv0 {w : Nat} (s : State) (v : BitVec w) : State := s.setCcr (putNZV s.ccr (isNeg v) (isZero v) false)

/-- N, Z, V, C from an operation. -/
def State.nzvc {w : Nat} (s : State) (r : Alu w) : State := s.setCcr (r.putFlags s.ccr)

/-- `PC <- target`: a change of flow, which refills the queue (10_state.md R40). -/
def jump (s : State) (target : Word) : State := { s with pc := target, stale := [] }

/-! ## Page register -/

/-- PPAGE as the CPU reads it through its dedicated line: a free byte where there is none (10_state.md R37, U17). -/
def readPpage (s : State) : Byte :=
  if s.cfg.ppageBits = 0 then Config.freeByte s.free .page 0 else (seenBy s .page).ppage

/-- PPAGE as CALL and RTC write it: the low `ppage_bits` bits, nothing where there is none (R37, D6). -/
def writePpage (s : State) (v : Byte) : State :=
  if s.cfg.ppageBits = 0 then s else logStore (setPpage s v) (.page v)

/-! ## Stack (48_index_stack_lea.md R575) -/

/-- `push8(v)`. -/
def push8 (s : State) (v : Byte) : State :=
  let s := s.setSp (s.sp - 1)
  store8 s s.sp v

/-- `push16(v)`: one decrement by two and one word write. -/
def push16 (s : State) (v : Word) : State :=
  let s := s.setSp (s.sp - 2)
  store16 s s.sp v

/-- The byte that `pull8()` returns. -/
def top8 (s : State) : Byte := read8 s .stack s.sp

/-- The word that `pull16()` returns. -/
def top16 (s : State) : Word := read16 s .stack s.sp

/-- The stack pointer after a pull of `n` bytes. -/
def drop (s : State) (n : Word) : State := s.setSp (s.sp + n)

/-! ## Exceptions -/

/-- The nine bytes every exception but reset stacks: RTN, Y, X, B : A, CCR (60_exceptions.md R670). B is at the lower
address and A above it. -/
def pushFrame (s : State) (rtn : Word) : State :=
  push8 (push16 (push16 (push16 (push16 s rtn) s.y) s.x) (joinBytes s.b s.a)) s.ccr

/-- What entry does to the masks: I, and X for XIRQ (R670). -/
def maskInterrupts (s : State) (isXirq : Bool) : State :=
  s.setCcr (if isXirq then s.ccr ||| 0x50 else s.ccr ||| 0x10)

/-- TMP1 to TMP3 hold any value: exception entry does not preserve them (R670, U12). -/
def dropTemporaries (s : State) : State :=
  { s with
    tmp1 := Config.freeWord s.free .entry1
    tmp2 := Config.freeWord s.free .entry2
    tmp3 := Config.freeWord s.free .entry3 }

/-- TAKING AN EXCEPTION (R670, R672): the vector is read first, then the frame is pushed with the return address `rtn`,
then I (and X for XIRQ) is set and the PC goes to the handler; TMP1 to TMP3 are not preserved. -/
def takeException (s : State) (vector rtn : Word) (isXirq : Bool) : State :=
  jump (dropTemporaries (maskInterrupts (pushFrame s rtn) isXirq)) (read16 s .vector vector)

/-- Entering a handler for which WAI or STOP has stacked the frame already (49_ccr_stop_misc.md R627, R630). -/
def enterHandler (s : State) (vector : Word) (isXirq : Bool) : State :=
  jump (dropTemporaries (maskInterrupts { s with run := .running } isXirq)) (read16 s .vector vector)

/-- RETURNING FROM AN EXCEPTION (47_jump_sub_int.md R530): the frame is read back in the order
CCR, B : A, X, PC, Y, X protected, and SP ends 9 higher. -/
def returnFromException (s : State) : State :=
  let s' := { s with
    ccr := protectX s.ccr (read8 s .stack s.sp)
    b := read8 s .stack2 (s.sp + 1)
    a := read8 s .stack2 (s.sp + 2)
    x := read16 s .stack3 (s.sp + 3)
    y := read16 s .stack5 (s.sp + 5)
    sp := s.sp + 9 }
  jump s' (read16 s .stack4 (s.sp + 7))

/-! ## Background debug mode -/

/-- ENBDM (60_exceptions.md R701). -/
def bdmEnabled (s : State) : Bool := s.bdm.status.getLsbD 7

/-- The byte of $FF00 to $FFFF with the BDM resources in the map: a register, or a free byte of the ROM or of $FF07 to
$FF1F, whose contents the source does not give (R708, N33, log 21). -/
def bdmResource (s : State) (a : Word) : Byte :=
  if a = 0xFF00 then s.bdm.instr
  else if a = 0xFF01 then s.bdm.status
  else if a = 0xFF02 then hiByte s.bdm.shift
  else if a = 0xFF03 then loByte s.bdm.shift
  else if a = 0xFF04 then hiByte s.bdm.addr
  else if a = 0xFF05 then loByte s.bdm.addr
  else if a = 0xFF06 then s.bdm.ccr
  else Config.freeByte s.free .bdmRom a

/-- What an access reaches with the BDM resources in the map: one of them, or what it reaches otherwise. -/
inductive MapTarget where
  | bdm (a : Word)
  | user (t : Target)
deriving DecidableEq, Repr

/-- The map with the BDM resources in it (20_memory.md R72, R708). The BDM ROM, and with it $FF07 to $FF1F, has place 2
of Table 10-1, so that an on-chip register there is seen. The BDM registers are themselves registers, place 1; between
one of them and an on-chip register the spec names no winner, and the BDM register is taken (DESIGN CHOICE, log 27). -/
def locateInMap (s : State) (a : Word) : MapTarget :=
  if a < 0xFF00 then .user (locate s a)
  else if a ≤ 0xFF06 then .bdm a
  else
    match resourceAt s.cfg.map a with
    | some r => if precedence r = 1 then .user (locate s a) else .bdm a
    | none => .bdm a

/-- A byte as read with the BDM resources in the map (R705, R708). -/
def read8InMap (s : State) (d : Draw) (a : Word) : Byte :=
  match locateInMap s a with
  | .bdm b => bdmResource s b
  | .user _ => read8 s d a

/-- A word as read with the BDM resources in the map. -/
def read16InMap (s : State) (d : Draw) (a : Word) : Word := joinBytes (read8InMap s d a) (read8InMap s d (a + 1))

/-- TMP2 on an activation of BDM: `resume` is the address of the BGND opcode that executes or, where none does, of the
instruction that would execute next, and a BGND opcode found there is stepped over (49_ccr_stop_misc.md R635). The byte
is the user's, as the fetch sees it (log 21). -/
def bdmResume (s : State) (resume : Word) : Word :=
  if read8 s .bgnd resume = 0 then resume + 1 else resume

/-- The PC in active BDM: the substitute vector that the BDM ROM holds at the SWI vector address, a word that the source
does not give (49_ccr_stop_misc.md R635, N33). -/
def substituteVector (s : State) : Word := read16InMap s .vector 0xFFF6

/-- Activation of BDM (49_ccr_stop_misc.md R635, 60_exceptions.md R700) with TMP2 the address to resume at; the CCR
goes into the holding register and nothing is stacked. With ENBDM = 1 BDM becomes active (BDMACT set, ENTAG cleared,
R701) and the PC goes into the BDM ROM; with ENBDM = 0 the firmware sends the program on at TMP2. -/
def enterBdm (s : State) (tmp2 : Word) : State :=
  let firmware := substituteVector s
  let s := { s with tmp2 := tmp2, bdm := { s.bdm with ccr := s.ccr, request := false } }
  if bdmEnabled s then
    jump { s with run := .bdmActive, bdm := { s.bdm with status := putBit (putBit s.bdm.status 6 true) 5 false } }
      firmware
  else jump s tmp2

end Sys2Proof.Machine
end

