-- ==== Sys2Proof/Machine/Operands.lean ====
section
/-! DEFINITION. The operand forms: effective addresses, the register updates of the auto-modify modes, and operand
values (30_encoding.md R110 to R125). An effective address is always computed from the registers at the start of the
instruction (D8); `s.pc` is PCnext. -/

namespace Sys2Proof.Machine

/-! ## Indexed forms -/

/-- `base_value` of a base register; `pcBase` is the value that PC stands for (R112). -/
def baseValue (s : State) (pcBase : Word) : IReg → Word
  | .x => s.x
  | .y => s.y
  | .sp => s.sp
  | .pc => pcBase

/-- A register that an auto-modify form names. -/
def areg (s : State) : AReg → Word
  | .x => s.x
  | .y => s.y
  | .sp => s.sp

/-- Writes a register that an auto-modify form names. -/
def setAreg (s : State) (v : Word) : AReg → State
  | .x => s.setX v
  | .y => s.setY v
  | .sp => s.setSp v

/-- Accumulator offset, unsigned (R123). -/
def accOffset (s : State) : AccOff → Word
  | .a => zext16 s.a
  | .b => zext16 s.b
  | .d => s.d

/-- `delta` of the auto-modify field: 0 to 7 are +1 to +8, 8 to 15 are −8 to −1 (R108). -/
def autoDelta (n : BitVec 4) : Word := if n.msb then sext16 n else n.setWidth 16 + 1

/-- EA of a one-postbyte form (R119, R122, R123). -/
def idxEa (s : State) (pcBase : Word) : Idx → Word
  | .off5 r n => baseValue s pcBase r + sext16 n
  | .auto r post n => if post then areg s r else areg s r + autoDelta n
  | .acc r o => baseValue s pcBase r + accOffset s o

/-- The register update of a one-postbyte form (R122). -/
def idxUpdate (s : State) : Idx → State
  | .off5 _ _ => s
  | .auto r _ n => setAreg s (areg s r + autoDelta n) r
  | .acc _ _ => s

/-- EA of a form that is not indirect (R119 to R123). -/
def idxXEa (s : State) : IdxX → Word
  | .idx i => idxEa s s.pc i
  | .off9 r n => baseValue s s.pc r + sext16 n
  | .off16 r n => baseValue s s.pc r + n

/-- The register update of a form that is not indirect. -/
def idxXUpdate (s : State) : IdxX → State
  | .idx i => idxUpdate s i
  | .off9 _ _ => s
  | .off16 _ _ => s

/-- The pointer of an indirect form (R124). -/
def idxPointer (s : State) (r : IReg) (offset : Word) : Word := baseValue s s.pc r + offset

/-- EA of any indexed form; an indirect one reads its pointer (R124). -/
def idxIEa (s : State) : IdxI → Word
  | .direct m => idxXEa s m
  | .ind16 r n => read16 s .pointer (idxPointer s r n)
  | .indD r => read16 s .pointer (idxPointer s r s.d)

/-- The register update of any indexed form. -/
def idxIUpdate (s : State) : IdxI → State
  | .direct m => idxXUpdate s m
  | .ind16 _ _ => s
  | .indD _ => s

/-- The registers as the access of a one-postbyte form finds them: a pre-modify is done before it, a post-modify after
it (R122). -/
def idxAccess (s : State) : Idx → State
  | .off5 _ _ => s
  | .auto r post n => if post then s else setAreg s (areg s r + autoDelta n) r
  | .acc _ _ => s

/-! ## Operand classes -/

/-- EA of a direct operand: the high byte is $00 (R114). -/
def dirEaOf (d : Byte) : Word := zext16 d

/-- Operand of the 8-bit read class (41_arith.md R220). -/
def src8 (s : State) : Src8 → Byte
  | .imm v => v
  | .dir d => read8 s .operand (dirEaOf d)
  | .ext a => read8 s .operand a
  | .ix m => read8 s .operand (idxIEa s m)

/-- Its register update. -/
def src8Update (s : State) : Src8 → State
  | .imm _ => s
  | .dir _ => s
  | .ext _ => s
  | .ix m => idxIUpdate s m

/-- Operand of the 16-bit read class (41_arith.md R221). -/
def src16 (s : State) : Src16 → Word
  | .imm v => v
  | .dir d => read16 s .operand (dirEaOf d)
  | .ext a => read16 s .operand a
  | .ix m => read16 s .operand (idxIEa s m)

/-- Its register update. -/
def src16Update (s : State) : Src16 → State
  | .imm _ => s
  | .dir _ => s
  | .ext _ => s
  | .ix m => idxIUpdate s m

/-- The registers as the access finds them (R122, R125). -/
def src16Access (s : State) : Src16 → State
  | .imm _ => s
  | .dir _ => s
  | .ext _ => s
  | .ix (.direct (.idx m)) => idxAccess s m
  | .ix (.direct (.off9 _ _)) => s
  | .ix (.direct (.off16 _ _)) => s
  | .ix (.ind16 _ _) => s
  | .ix (.indD _) => s

/-- EA of a store or JSR operand. -/
def mem3Ea (s : State) : Mem3 → Word
  | .dir d => dirEaOf d
  | .ext a => a
  | .ix m => idxIEa s m

/-- Its register update. -/
def mem3Update (s : State) : Mem3 → State
  | .dir _ => s
  | .ext _ => s
  | .ix m => idxIUpdate s m

/-- EA of a read-modify-write, CLR, TST or JMP operand. -/
def mem2Ea (s : State) : Mem2 → Word
  | .ext a => a
  | .ix m => idxIEa s m

/-- Its register update. -/
def mem2Update (s : State) : Mem2 → State
  | .ext _ => s
  | .ix m => idxIUpdate s m

/-- EA of a bit-instruction operand. -/
def bitEa (s : State) : BitEa → Word
  | .dir d => dirEaOf d
  | .ext a => a
  | .ix m => idxXEa s m

/-- Its register update. -/
def bitUpdate (s : State) : BitEa → State
  | .dir _ => s
  | .ext _ => s
  | .ix m => idxXUpdate s m

/-- Whether a store operand pre-modifies the register `r` (D8, U13). -/
def preModifies (r : AReg) : Mem3 → Bool
  | .ix (.direct (.idx (.auto r' false _))) => r == r'
  | _ => false

end Sys2Proof.Machine
end

