-- ==== Sys2Proof/Machine/Arith.lean ====
section
/-! DEFINITION. Addition, subtraction, DAA, increment, decrement, compare and test (41_arith.md). -/

namespace Sys2Proof.Machine

/-! ## Shared operations -/

/-- The H, N, Z, V, C of an 8-bit addition of `a` and `m` (R223). -/
def State.addFlags (s : State) (a m : Byte) (r : Alu 8) : State :=
  s.setCcr (putHNZVC s.ccr (halfCarry a m r.r) r.n r.z r.v r.c)

/-- Addition into A (R227, R229). -/
def addToA (m : Byte) (cin : Bool) (s : State) : State :=
  (s.setA (addc s.a m cin).r).addFlags s.a m (addc s.a m cin)

/-- Addition into B (R228, R230). -/
def addToB (m : Byte) (cin : Bool) (s : State) : State :=
  (s.setB (addc s.b m cin).r).addFlags s.b m (addc s.b m cin)

/-- Subtraction from A (R233, R235). -/
def subFromA (m : Byte) (bin : Bool) (s : State) : State := (s.setA (subb s.a m bin).r).nzvc (subb s.a m bin)

/-- Subtraction from B (R234, R236). -/
def subFromB (m : Byte) (bin : Bool) (s : State) : State := (s.setB (subb s.b m bin).r).nzvc (subb s.b m bin)

/-- Compare: the flags of a subtraction, the result discarded (R261, R263). -/
def compare {w : Nat} (r m : BitVec w) (s : State) : State := s.nzvc (subb r m false)

/-- N and Z of an increment or decrement, and its V; C is not affected (R245, R251). -/
def State.stepFlags (s : State) (r : Byte) (v : Bool) : State := s.setCcr (putNZV s.ccr (isNeg r) (isZero r) v)

/-- Z alone, for INX, INY, DEX, DEY (R249). -/
def State.zeroFlag (s : State) (r : Word) : State := s.setCcr (putZ s.ccr (isZero r))

/-- V of a decrement of `m` (R245). -/
def decOverflow (m : Byte) : Bool := m == 0x80

/-- V of an increment of `m` (R251). -/
def incOverflow (m : Byte) : Bool := m == 0x7F

/-! ## Addition -/

/-- ABA (R224). -/
def execAba (s : State) : Res := .next (addToA s.b false s)

/-- ABX (R225): LEAX B,X. -/
def execAbx (s : State) : Res := .next (s.setX (s.x + zext16 s.b))

/-- ABY (R226): LEAY B,Y. -/
def execAby (s : State) : Res := .next (s.setY (s.y + zext16 s.b))

/-- ADCA (R227). -/
def execAdca (o : Src8) (s : State) : Res := .next (addToA (src8 s o) s.flagC (src8Update s o))

/-- ADCB (R228). -/
def execAdcb (o : Src8) (s : State) : Res := .next (addToB (src8 s o) s.flagC (src8Update s o))

/-- ADDA (R229). -/
def execAdda (o : Src8) (s : State) : Res := .next (addToA (src8 s o) false (src8Update s o))

/-- ADDB (R230). -/
def execAddb (o : Src8) (s : State) : Res := .next (addToB (src8 s o) false (src8Update s o))

/-- ADDD (R231): H is not changed. -/
def execAddd (o : Src16) (s : State) : Res :=
  .next (((src16Update s o).setD (addc s.d (src16 s o) false).r).nzvc (addc s.d (src16 s o) false))

/-! ## Subtraction -/

/-- SBA (R232). -/
def execSba (s : State) : Res := .next (subFromA s.b false s)

/-- SBCA (R233). -/
def execSbca (o : Src8) (s : State) : Res := .next (subFromA (src8 s o) s.flagC (src8Update s o))

/-- SBCB (R234). -/
def execSbcb (o : Src8) (s : State) : Res := .next (subFromB (src8 s o) s.flagC (src8Update s o))

/-- SUBA (R235). -/
def execSuba (o : Src8) (s : State) : Res := .next (subFromA (src8 s o) false (src8Update s o))

/-- SUBB (R236). -/
def execSubb (o : Src8) (s : State) : Res := .next (subFromB (src8 s o) false (src8Update s o))

/-- SUBD (R237). -/
def execSubd (o : Src16) (s : State) : Res :=
  .next (((src16Update s o).setD (subb s.d (src16 s o) false).r).nzvc (subb s.d (src16 s o) false))

/-! ## DAA -/

/-- The glossary's table: the correction factor and the corrected C, for the nine rows of (C, A[7:4], H, A[3:0])
(R240). -/
def daaRow (c : Bool) (hi : Nat) (h : Bool) (lo : Nat) : Option (Byte × Bool) :=
  if !c && hi ≤ 9 && !h && lo ≤ 9 then some (0x00, false)
  else if !c && hi ≤ 8 && !h && 10 ≤ lo then some (0x06, false)
  else if !c && hi ≤ 9 && h && lo ≤ 3 then some (0x06, false)
  else if !c && 10 ≤ hi && !h && lo ≤ 9 then some (0x60, true)
  else if !c && 9 ≤ hi && !h && 10 ≤ lo then some (0x66, true)
  else if !c && 10 ≤ hi && h && lo ≤ 3 then some (0x66, true)
  else if c && hi ≤ 2 && !h && lo ≤ 9 then some (0x60, true)
  else if c && hi ≤ 2 && !h && 10 ≤ lo then some (0x66, true)
  else if c && hi ≤ 3 && h && lo ≤ 3 then some (0x66, true)
  else none

/-- The row for the state DAA starts in. -/
def daaLookup (s : State) : Option (Byte × Bool) :=
  daaRow s.flagC (s.a.extractLsb' 4 4).toNat s.flagH (s.a.extractLsb' 0 4).toNat

/-- DAA's result and flags: N and Z from the result, V undefined. -/
def daaResult (s : State) (r : Byte) (c : Bool) : State :=
  (s.setA r).setCcr (putNZVC s.ccr (isNeg r) (isZero r) (freeFlag s 1) c)

/-- DAA (R240); outside the table A and C are free values too (D9, U10). -/
def execDaa (s : State) : Res :=
  match daaLookup s with
  | some (k, c) => .next (daaResult s (s.a + k) c)
  | none => .next (daaResult s (loByte (Config.freeWord s.free .result)) (freeFlag s 0))

/-! ## Decrement and increment -/

/-- DEC (R245). -/
def execDec (m : Mem2) (s : State) : Res :=
  let v := read8 s .operand (mem2Ea s m)
  .next ((store8 (mem2Update s m) (mem2Ea s m) (v - 1)).stepFlags (v - 1) (decOverflow v))

/-- DECA (R246). -/
def execDeca (s : State) : Res := .next ((s.setA (s.a - 1)).stepFlags (s.a - 1) (decOverflow s.a))

/-- DECB (R247). -/
def execDecb (s : State) : Res := .next ((s.setB (s.b - 1)).stepFlags (s.b - 1) (decOverflow s.b))

/-- DES (R248): LEAS −1,SP. -/
def execDes (s : State) : Res := .next (s.setSp (s.sp - 1))

/-- DEX (R249). -/
def execDex (s : State) : Res := .next ((s.setX (s.x - 1)).zeroFlag (s.x - 1))

/-- DEY (R250). -/
def execDey (s : State) : Res := .next ((s.setY (s.y - 1)).zeroFlag (s.y - 1))

/-- INC (R251). -/
def execInc (m : Mem2) (s : State) : Res :=
  let v := read8 s .operand (mem2Ea s m)
  .next ((store8 (mem2Update s m) (mem2Ea s m) (v + 1)).stepFlags (v + 1) (incOverflow v))

/-- INCA (R252). -/
def execInca (s : State) : Res := .next ((s.setA (s.a + 1)).stepFlags (s.a + 1) (incOverflow s.a))

/-- INCB (R253). -/
def execIncb (s : State) : Res := .next ((s.setB (s.b + 1)).stepFlags (s.b + 1) (incOverflow s.b))

/-- INS (R254): LEAS 1,SP. -/
def execIns (s : State) : Res := .next (s.setSp (s.sp + 1))

/-- INX (R255). -/
def execInx (s : State) : Res := .next ((s.setX (s.x + 1)).zeroFlag (s.x + 1))

/-- INY (R256). -/
def execIny (s : State) : Res := .next ((s.setY (s.y + 1)).zeroFlag (s.y + 1))

/-! ## Compare and test -/

/-- CBA (R260). -/
def execCba (s : State) : Res := .next (compare s.a s.b s)

/-- CMPA (R261). -/
def execCmpa (o : Src8) (s : State) : Res := .next (compare s.a (src8 s o) (src8Update s o))

/-- CMPB (R262). -/
def execCmpb (o : Src8) (s : State) : Res := .next (compare s.b (src8 s o) (src8Update s o))

/-- CPD (R263). -/
def execCpd (o : Src16) (s : State) : Res := .next (compare s.d (src16 s o) (src16Update s o))

/-- CPS (R264): SP is compared as it is at the access, after a pre-modify and before a post-modify (30_encoding.md R122,
R125, log 11). -/
def execCps (o : Src16) (s : State) : Res := .next (compare (src16Access s o).sp (src16 s o) (src16Update s o))

/-- CPX (R265): X is compared as it is at the access. -/
def execCpx (o : Src16) (s : State) : Res := .next (compare (src16Access s o).x (src16 s o) (src16Update s o))

/-- CPY (R266): Y is compared as it is at the access. -/
def execCpy (o : Src16) (s : State) : Res := .next (compare (src16Access s o).y (src16 s o) (src16Update s o))

/-- TST (R270). -/
def execTst (m : Mem2) (s : State) : Res :=
  .next ((mem2Update s m).nzvc (tested (read8 s .operand (mem2Ea s m))))

/-- TSTA (R271). -/
def execTsta (s : State) : Res := .next (s.nzvc (tested s.a))

/-- TSTB (R272). -/
def execTstb (s : State) : Res := .next (s.nzvc (tested s.b))

end Sys2Proof.Machine
end

