-- ==== Sys2Proof/Machine/Branch.lean ====
section
/-! DEFINITION. Branches, bit-condition branches and loop primitives (46_branch.md). The PC holds PCnext. -/

namespace Sys2Proof.Machine

/-- `if cond: PC <- PCnext + offset`; a branch not taken leaves the PC at PCnext (R460). -/
def branchIf (cond : Bool) (offset : Word) (s : State) : State :=
  if cond then jump s (s.pc + offset) else s

/-! ## Conditions (R461) -/

/-- C + Z = 0. -/
def condHi (s : State) : Bool := !(s.flagC || s.flagZ)
/-- C = 0. -/
def condCc (s : State) : Bool := !s.flagC
/-- Z = 1. -/
def condEq (s : State) : Bool := s.flagZ
/-- V = 1. -/
def condVs (s : State) : Bool := s.flagV
/-- N = 1. -/
def condMi (s : State) : Bool := s.flagN
/-- N ⊕ V = 0. -/
def condGe (s : State) : Bool := !(s.flagN != s.flagV)
/-- Z + (N ⊕ V) = 0. -/
def condGt (s : State) : Bool := !(s.flagZ || (s.flagN != s.flagV))

/-! ## Short branches (R462) -/

/-- BRA (R463). -/
def execBra (rel : Byte) (s : State) : Res := .next (branchIf true (sext16 rel) s)

/-- BRN (R464). -/
def execBrn (rel : Byte) (s : State) : Res := .next (branchIf false (sext16 rel) s)

/-- BHI (R473). -/
def execBhi (rel : Byte) (s : State) : Res := .next (branchIf (condHi s) (sext16 rel) s)

/-- BLS (R476). -/
def execBls (rel : Byte) (s : State) : Res := .next (branchIf (!condHi s) (sext16 rel) s)

/-- BCC (R465). -/
def execBcc (rel : Byte) (s : State) : Res := .next (branchIf (condCc s) (sext16 rel) s)

/-- BCS (R466). -/
def execBcs (rel : Byte) (s : State) : Res := .next (branchIf (!condCc s) (sext16 rel) s)

/-- BNE (R469). -/
def execBne (rel : Byte) (s : State) : Res := .next (branchIf (!condEq s) (sext16 rel) s)

/-- BEQ (R467). -/
def execBeq (rel : Byte) (s : State) : Res := .next (branchIf (condEq s) (sext16 rel) s)

/-- BVC (R471). -/
def execBvc (rel : Byte) (s : State) : Res := .next (branchIf (!condVs s) (sext16 rel) s)

/-- BVS (R472). -/
def execBvs (rel : Byte) (s : State) : Res := .next (branchIf (condVs s) (sext16 rel) s)

/-- BPL (R470). -/
def execBpl (rel : Byte) (s : State) : Res := .next (branchIf (!condMi s) (sext16 rel) s)

/-- BMI (R468). -/
def execBmi (rel : Byte) (s : State) : Res := .next (branchIf (condMi s) (sext16 rel) s)

/-- BGE (R477). -/
def execBge (rel : Byte) (s : State) : Res := .next (branchIf (condGe s) (sext16 rel) s)

/-- BLT (R480). -/
def execBlt (rel : Byte) (s : State) : Res := .next (branchIf (!condGe s) (sext16 rel) s)

/-- BGT (R478). -/
def execBgt (rel : Byte) (s : State) : Res := .next (branchIf (condGt s) (sext16 rel) s)

/-- BLE (R479). -/
def execBle (rel : Byte) (s : State) : Res := .next (branchIf (!condGt s) (sext16 rel) s)

/-- BHS (R474). -/
def execBhs (rel : Byte) (s : State) : Res := .next (branchIf (condCc s) (sext16 rel) s)

/-- BLO (R475). -/
def execBlo (rel : Byte) (s : State) : Res := .next (branchIf (!condCc s) (sext16 rel) s)

/-! ## Long branches (R481) -/

/-- LBRA (R482). -/
def execLbra (rel : Word) (s : State) : Res := .next (branchIf true rel s)

/-- LBRN (R483). -/
def execLbrn (rel : Word) (s : State) : Res := .next (branchIf false rel s)

/-- LBHI (R492). -/
def execLbhi (rel : Word) (s : State) : Res := .next (branchIf (condHi s) rel s)

/-- LBLS (R495). -/
def execLbls (rel : Word) (s : State) : Res := .next (branchIf (!condHi s) rel s)

/-- LBCC (R484). -/
def execLbcc (rel : Word) (s : State) : Res := .next (branchIf (condCc s) rel s)

/-- LBCS (R485). -/
def execLbcs (rel : Word) (s : State) : Res := .next (branchIf (!condCc s) rel s)

/-- LBNE (R488). -/
def execLbne (rel : Word) (s : State) : Res := .next (branchIf (!condEq s) rel s)

/-- LBEQ (R486). -/
def execLbeq (rel : Word) (s : State) : Res := .next (branchIf (condEq s) rel s)

/-- LBVC (R490). -/
def execLbvc (rel : Word) (s : State) : Res := .next (branchIf (!condVs s) rel s)

/-- LBVS (R491). -/
def execLbvs (rel : Word) (s : State) : Res := .next (branchIf (condVs s) rel s)

/-- LBPL (R489). -/
def execLbpl (rel : Word) (s : State) : Res := .next (branchIf (!condMi s) rel s)

/-- LBMI (R487). -/
def execLbmi (rel : Word) (s : State) : Res := .next (branchIf (condMi s) rel s)

/-- LBGE (R496). -/
def execLbge (rel : Word) (s : State) : Res := .next (branchIf (condGe s) rel s)

/-- LBLT (R499). -/
def execLblt (rel : Word) (s : State) : Res := .next (branchIf (!condGe s) rel s)

/-- LBGT (R497). -/
def execLbgt (rel : Word) (s : State) : Res := .next (branchIf (condGt s) rel s)

/-- LBLE (R498). -/
def execLble (rel : Word) (s : State) : Res := .next (branchIf (!condGt s) rel s)

/-- LBHS (R493). -/
def execLbhs (rel : Word) (s : State) : Res := .next (branchIf (condCc s) rel s)

/-- LBLO (R494). -/
def execLblo (rel : Word) (s : State) : Res := .next (branchIf (!condCc s) rel s)

/-! ## Bit-condition branches -/

/-- BRSET (R502): taken when every bit of the mask is set in the byte. -/
def execBrset (m : BitEa) (mask rel : Byte) (s : State) : Res :=
  .next (branchIf (~~~(read8 s .operand (bitEa s m)) &&& mask == 0) (sext16 rel) (bitUpdate s m))

/-- BRCLR (R501): taken when every bit of the mask is clear in the byte. -/
def execBrclr (m : BitEa) (mask rel : Byte) (s : State) : Res :=
  .next (branchIf (read8 s .operand (bitEa s m) &&& mask == 0) (sext16 rel) (bitUpdate s m))

/-! ## Loop primitives (R505) -/

/-- Whether a counter is zero, at its own width. -/
def counterIsZero (s : State) : LoopReg → Bool
  | .a => s.a == 0
  | .b => s.b == 0
  | .d => s.d == 0
  | .x => s.x == 0
  | .y => s.y == 0
  | .sp => s.sp == 0

/-- Adds one to a counter, modulo its width. -/
def incCounter (s : State) : LoopReg → State
  | .a => s.setA (s.a + 1)
  | .b => s.setB (s.b + 1)
  | .d => s.setD (s.d + 1)
  | .x => s.setX (s.x + 1)
  | .y => s.setY (s.y + 1)
  | .sp => s.setSp (s.sp + 1)

/-- Subtracts one from a counter, modulo its width. -/
def decCounter (s : State) : LoopReg → State
  | .a => s.setA (s.a - 1)
  | .b => s.setB (s.b - 1)
  | .d => s.setD (s.d - 1)
  | .x => s.setX (s.x - 1)
  | .y => s.setY (s.y - 1)
  | .sp => s.setSp (s.sp - 1)

/-- The new counter value is tested (R505): branch if it is zero. -/
def branchIfZero (r : LoopReg) (rel : BitVec 9) (s : State) : State := branchIf (counterIsZero s r) (sext16 rel) s

/-- Branch if the counter is not zero. -/
def branchIfNonzero (r : LoopReg) (rel : BitVec 9) (s : State) : State := branchIf (!counterIsZero s r) (sext16 rel) s

/-- DBEQ (R506). -/
def execDbeq (r : LoopReg) (rel : BitVec 9) (s : State) : Res := .next (branchIfZero r rel (decCounter s r))

/-- DBNE (R507). -/
def execDbne (r : LoopReg) (rel : BitVec 9) (s : State) : Res := .next (branchIfNonzero r rel (decCounter s r))

/-- TBEQ (R510). -/
def execTbeq (r : LoopReg) (rel : BitVec 9) (s : State) : Res := .next (branchIfZero r rel s)

/-- TBNE (R511). -/
def execTbne (r : LoopReg) (rel : BitVec 9) (s : State) : Res := .next (branchIfNonzero r rel s)

/-- IBEQ (R508). -/
def execIbeq (r : LoopReg) (rel : BitVec 9) (s : State) : Res := .next (branchIfZero r rel (incCounter s r))

/-- IBNE (R509). -/
def execIbne (r : LoopReg) (rel : BitVec 9) (s : State) : Res := .next (branchIfNonzero r rel (incCounter s r))

end Sys2Proof.Machine
end

