-- ==== Sys2Proof/Machine/Control.lean ====
section
/-! DEFINITION. Condition-code instructions, NOP, STOP, WAI, BGND (49_ccr_stop_misc.md) and the encodings that the
glossary does not list (30_encoding.md R135). -/

namespace Sys2Proof.Machine

/-- `CCR <- CCR & mask` (R611). -/
def andCcr (mask : Byte) (s : State) : State := s.setCcr (s.ccr &&& mask)

/-- `CCR <- CCR | (mask & $BF)`: X cannot be set (R612). -/
def orCcr (mask : Byte) (s : State) : State := s.setCcr (s.ccr ||| (mask &&& 0xBF))

/-- ANDCC (R611). -/
def execAndcc (mask : Byte) (s : State) : Res := .next (andCcr mask s)

/-- ORCC (R612). -/
def execOrcc (mask : Byte) (s : State) : Res := .next (orCcr mask s)

/-- CLC (R613): ANDCC #$FE. -/
def execClc (s : State) : Res := .next (andCcr 0xFE s)

/-- CLI (R614): ANDCC #$EF. -/
def execCli (s : State) : Res := .next (andCcr 0xEF s)

/-- CLV (R615): ANDCC #$FD. -/
def execClv (s : State) : Res := .next (andCcr 0xFD s)

/-- SEC (R616): ORCC #$01. -/
def execSec (s : State) : Res := .next (orCcr 0x01 s)

/-- SEI (R617): ORCC #$10. -/
def execSei (s : State) : Res := .next (orCcr 0x10 s)

/-- SEV (R618): ORCC #$02. -/
def execSev (s : State) : Res := .next (orCcr 0x02 s)

/-- NOP (R620). -/
def execNop (s : State) : Res := .next s

/-- STOP (R625): with S = 1 nothing; with S = 0 the frame is stacked and the machine stops. -/
def execStop (s : State) : Res :=
  if s.flagS then .next s else .next { pushFrame s s.pc with run := .stopped }

/-- WAI (R630): the frame is stacked and the machine waits. -/
def execWai (s : State) : Res := .next { pushFrame s s.pc with run := .waiting }

/-- BGND (R635): TMP2 is the address of the opcode, and PCnext if the byte that is read there at the end of the
sequence is $00, as it is unless a BDM command has changed it since or no memory holds it. -/
def execBgnd (s : State) : Res := .next (enterBdm s (bdmResume s (s.pc - 1)))

/-- The encodings of 30_encoding.md R135: no effect and no trap is given, so the model refuses (U14). -/
def execUndefined (_e : UndefEnc) (_s : State) : Res := .refused .undefinedEncoding

end Sys2Proof.Machine
end

