-- ==== Sys2Proof/Machine/Fuzzy.lean ====
section
/-! DEFINITION. The fuzzy logic instructions MEM, REV, REVW, WAV and the pseudo-instruction wavr
(45_fuzzy_minmax_mac_tbl.md R410 to R417). REV, REVW and WAV run to completion in one step unless the step's budget of
passes ends first; then the machine stands at the instruction's interrupt point (R410, D12, log 15), with the PC at
the return address that an interrupt there would stack, and the next step takes a pending interrupt or goes on. -/

namespace Sys2Proof.Machine

/-! ## MEM -/

/-- The grade of membership by the algorithm of R411 (steps 2 to 4b). -/
def memGrade (a p1 p2 s1 s2 : Byte) : Byte :=
  let outside : Bool := a.ult p1 || p2.ult a
  let g1 : Word := if outside then 0 else zext16 (a - p1) * zext16 s1
  let g2 : Word := if outside then 0 else zext16 (p2 - a) * zext16 s2
  let grade : Byte := if (s2 == 0 || (0x00FF : Word).ult g2) && !outside then 0xFF else loByte g2
  if s1 == 0 || (0x00FF : Word).ult g1 then grade else loByte g1

/-- The flags that MEM and WAV leave undefined: H, N, Z, V, C (U2, U4). -/
def freeHNZVC (s : State) : Byte :=
  putHNZVC s.ccr (freeFlag s 5) (freeFlag s 3) (freeFlag s 2) (freeFlag s 1) (freeFlag s 0)

/-- MEM (R411): two word reads at X, one byte write at Y. -/
def execMem (s : State) : Res :=
  let w1 := read16 s .operand s.x
  let w2 := read16 s .second (s.x + 2)
  let grade := memGrade s.a (hiByte w1) (loByte w1) (hiByte w2) (loByte w2)
  .next ((((store8 s s.y grade).setY (s.y + 1)).setX (s.x + 4)).setCcr (freeHNZVC s))

/-! ## Shared by the interruptible instructions -/

/-- How many passes this step may make: the budget, or `most`, which no terminating run exceeds. -/
def passLimit (s : State) (most : Nat) : Nat := s.budget.getD most

/-- One more draw of free values. -/
def nextDraw (s : State) : State := { s with free := s.free + 1 }

/-- The instruction is finished. -/
def finished (s : State) : State := { s with progress := .none }

/-! ## REV and REVW -/

/-- An antecedent: the running minimum (R412). -/
def antecedent (s : State) (m : Byte) : State := if m.ult s.a then s.setA m else s

/-- A consequent: the output is raised to the truth value, and remembered as written (R412, D14). -/
def consequent (s : State) (addr : Word) (m : Byte) : State :=
  if m.ult s.a then
    let t := store8 s addr s.a
    { t with outputs := slotAt s addr :: t.outputs }
  else s

/-- The bytes of the list at X are noted as read (D14). -/
def consume (s : State) (bytes : List Word) : State :=
  { s with consumed := (bytes.map fun k => slotAt s (s.x + k)) ++ s.consumed }

/-- Toggles V at a separator (R412, R413). -/
def toggleV (s : State) : State := s.setCcr (putBit s.ccr 1 (!s.flagV))

/-- Whether the rule list overlaps the outputs that this execution has written (D14, U22): the element at X is one of
them, or one of them is a byte of the list that was read. -/
def overlapsOutputs (s : State) (bytes : List Word) : Bool :=
  (bytes.map fun k => slotAt s (s.x + k)).any s.outputs.contains || s.outputs.any s.consumed.contains

/-- The list of the REV or REVW in progress overlaps its outputs. -/
def ruleListOverlap (s : State) : Bool :=
  match s.progress with
  | .rev => overlapsOutputs s [0]
  | .revw => overlapsOutputs s [0, 1]
  | .wav | .none => false

/-- One list element of REV (R412). -/
def revPass (s : State) : State :=
  let rx := read8 s .operand s.x
  let t := nextDraw ((consume s [0]).setX (s.x + 1))
  if rx = 0xFF then finished t
  else if rx = 0xFE then toggleV (if s.flagV then t.setA 0xFF else t)
  else
    let ea := s.y + zext16 rx
    let m := read8 s .second ea
    if s.flagV then consequent t ea m else antecedent t m

/-- The weighted truth value: the upper byte of A × (weight + 1) (R413). -/
def weighted (a w : Byte) : Byte := hiByte (zext16 a * (zext16 w + 1))

/-- One list element of REVW (R413). -/
def revwPass (s : State) : State :=
  let rx := read16 s .operand s.x
  let t := nextDraw ((consume s [0, 1]).setX (s.x + 2))
  if rx = 0xFFFF then finished t
  else if rx = 0xFFFE then
    toggleV (if s.flagV then t.setA 0xFF
      else if s.flagC then (t.setA (weighted s.a (read8 s .third s.y))).setY (s.y + 1)
      else t)
  else
    let m := read8 s .second rx
    if s.flagV then consequent t rx m else antecedent t m

/-- Passes of `pass` until the instruction is finished, the passes run out or the rule list meets a written output. -/
def ruleLoop (pass : State → State) : Nat → State → State
  | 0, s => s
  | n + 1, s =>
      if ruleListOverlap s then s
      else
        let t := pass s
        if t.progress = .none then t else ruleLoop pass n t

/-- The end of a run of REV: H, N, Z, C free (U3); if it is not finished the PC goes back to the instruction (R414). -/
def endRev (s : State) : State :=
  let s := s.setCcr (putBit (putNZC s.ccr (freeFlag s 3) (freeFlag s 2) (freeFlag s 0)) 5 (freeFlag s 5))
  if s.progress = .none then s else { s with pc := s.pc - 2 }

/-- The end of a run of REVW: H, N, Z free, C kept (U3, R413). -/
def endRevw (s : State) : State :=
  let s := s.setCcr (putBit (putNZ s.ccr (freeFlag s 3) (freeFlag s 2)) 5 (freeFlag s 5))
  if s.progress = .none then s else { s with pc := s.pc - 2 }

/-- REV goes on from its interrupt point; the PC holds PCnext. A list of 65536 elements has covered the address space.
-/
def runRev (s : State) : State := endRev (ruleLoop revPass (passLimit s 65536) s)

/-- REVW goes on from its interrupt point. -/
def runRevw (s : State) : State := endRevw (ruleLoop revwPass (passLimit s 65536) s)

/-- Whether a record is that of the REV or REVW now entered: it was left at this address, with A, X, Y, V and SP as they
are now, which is how RTI restores them (R414). A handler's own REV has another SP (log 15). -/
def resumesRecord (s : State) (r : RuleRecord) : Bool :=
  r.pc == s.pc - 2 && r.a == s.a && r.x == s.x && r.y == s.y && r.v == s.flagV && r.sp == s.sp

/-- The record that the REV or REVW now entered has left, if it resumes one. -/
def ownRecord (s : State) : Option RuleRecord := s.suspended.find? (resumesRecord s)

/-- The entry of REV or REVW, which is also its return from an interrupt inside it (R414): the record that it left is
taken up and off the list, and every other stays, in whatever order the executions are resumed; where it left none it
starts with nothing read or written (D14, log 15). -/
def enterRules (s : State) : State :=
  match ownRecord s with
  | some r => { s with outputs := r.outputs, consumed := r.consumed, suspended := s.suspended.erase r }
  | none => { s with outputs := [], consumed := [] }

/-- An interrupt inside REV or REVW leaves its record (D14). -/
def suspendRules (s : State) : State :=
  if s.progress = .rev ∨ s.progress = .revw then
    { s with suspended := ⟨s.pc, s.a, s.x, s.y, s.flagV, s.sp, s.outputs, s.consumed⟩ :: s.suspended }
  else s

/-- REV (R412). -/
def execRev (s : State) : Res := .next (runRev { enterRules s with progress := .rev })

/-- REVW (R413). -/
def execRevw (s : State) : Res := .next (runRevw { enterRules s with progress := .revw })

/-! ## WAV and wavr -/

/-- The sum of products TMP1 : TMP2. -/
def wavSum (s : State) : BitVec 32 := s.tmp1 ++ s.tmp2

/-- The body of WAV's loop and the test at its bottom (R415): S and F are read, the sums grow, and with B ≠ 0 the next
iteration's decrement at the top follows, which leads to the interrupt point; with B = 0 the sums go to Y : D and X. -/
def wavPass (s : State) : State :=
  let sv := read8 s .operand s.x
  let fv := read8 s .second s.y
  let sop := wavSum s + sv.setWidth 32 * fv.setWidth 32
  let sow := s.tmp3 + zext16 fv
  let t := nextDraw { s with
    x := s.x + 1
    y := s.y + 1
    tmp1 := sop.extractLsb' 16 16
    tmp2 := sop.extractLsb' 0 16
    tmp3 := sow }
  if s.b = 0 then finished (((t.setY t.tmp1).setD t.tmp2).setX t.tmp3) else t.setB (s.b - 1)

/-- Passes until the instruction is finished or the passes run out. -/
def wavLoop : Nat → State → State
  | 0, s => s
  | n + 1, s =>
      let t := wavPass s
      if t.progress = .none then t else wavLoop n t

/-- The end of a run of WAV: H, N, V, C free and Z = 1 when it is finished; otherwise the five flags are free and the
PC goes back to the $3C byte (R415, R417, U4). -/
def endWav (s : State) : State :=
  if s.progress = .none then s.setCcr (putBit (freeHNZVC s) 2 true)
  else { s.setCcr (freeHNZVC s) with pc := s.pc - 1 }

/-- How many passes WAV may make: B counts at most 256 iterations. -/
def wavLimit (s : State) : Nat := passLimit s 256

/-- WAV goes on from its interrupt point; the PC holds PCnext. -/
def runWav (s : State) : State := endWav (wavLoop (wavLimit s) s)

/-- WAV (R415): the sums start at 0 and B is decremented once before the first interrupt point. -/
def execWav (s : State) : Res :=
  .next (runWav { s.setB (s.b - 1) with tmp1 := 0, tmp2 := 0, tmp3 := 0, progress := .wav })

/-- wavr (R416): the sums are pulled, the body of the interrupted iteration runs at once, then the loop goes on. As no
interrupt point stands before that body, wavr makes one pass even where the budget of passes is 0, and otherwise as
many in all as the budget says (DESIGN CHOICE, log 15). -/
def execWavr (s : State) : Res :=
  let t := drop { s with
    tmp1 := read16 s .stack s.sp
    tmp2 := read16 s .stack2 (s.sp + 2)
    tmp3 := read16 s .stack3 (s.sp + 4)
    progress := .wav } 6
  .next (endWav (wavLoop (max 1 (wavLimit t)) t))

end Sys2Proof.Machine
end

