-- ==== Sys2Proof/Machine/Jump.lean ====
section
/-! DEFINITION. Jumps, subroutines, returns, SWI and TRAP (47_jump_sub_int.md). The PC holds PCnext. -/

namespace Sys2Proof.Machine

/-- JMP (R521): no operand is read at EA. -/
def execJmp (m : Mem2) (s : State) : Res := .next (jump (mem2Update s m) (mem2Ea s m))

/-- BSR (R522). -/
def execBsr (rel : Byte) (s : State) : Res := .next (jump (push16 s s.pc) (s.pc + sext16 rel))

/-- JSR (R523): the target is computed before the push (R520, D15). -/
def execJsr (m : Mem3) (s : State) : Res := .next (jump (push16 (mem3Update s m) s.pc) (mem3Ea s m))

/-- RTS (R525). -/
def execRts (s : State) : Res := .next (jump (drop s 2) (top16 s))

/-- The target of CALL (R524). -/
def callTarget (s : State) : CallDest → Word
  | .ext a _ => a
  | .direct m _ => idxXEa s m
  | .ind16 r n => read16 s .pointer (idxPointer s r n)
  | .indD r => read16 s .pointer (idxPointer s r s.d)

/-- The page of CALL: `pg`, or in the indirect forms the byte after the pointer (R524). -/
def callPage (s : State) : CallDest → Byte
  | .ext _ pg => pg
  | .direct _ pg => pg
  | .ind16 r n => read8 s .operand (idxPointer s r n + 2)
  | .indD r => read8 s .operand (idxPointer s r s.d + 2)

/-- The register update of CALL. -/
def callUpdate (s : State) : CallDest → State
  | .ext _ _ => s
  | .direct m _ => idxXUpdate s m
  | .ind16 _ _ => s
  | .indD _ => s

/-- CALL (R524): PPAGE is written before the pushes, which see the new page. -/
def execCall (dest : CallDest) (s : State) : Res :=
  let t := writePpage (callUpdate s dest) (callPage s dest)
  .next (jump (push8 (push16 t s.pc) (readPpage s)) (callTarget s dest))

/-- RTC (R526): PPAGE is written after both pulls. -/
def execRtc (s : State) : Res :=
  .next (jump (writePpage (drop s 3) (top8 s)) (read16 s .stack2 (s.sp + 1)))

/-- RTI (R530). -/
def execRti (s : State) : Res := .next (returnFromException s)

/-- SWI (R535): vector $FFF6, return address PCnext. -/
def execSwi (s : State) : Res := .next (takeException s 0xFFF6 s.pc false)

/-- TRAP (R536): vector $FFF8, return address PCnext; the trap number changes nothing. -/
def execTrap (_tn : Byte) (s : State) : Res := .next (takeException s 0xFFF8 s.pc false)

end Sys2Proof.Machine
end

