-- ==== Sys2Proof/Machine/LoadStore.lean ====
section
/-! DEFINITION. Loads, stores, TAB and TBA (40_load_store_move.md R160 to R181). -/

namespace Sys2Proof.Machine

/-! ## Loads: the operand's register update, then the load, so that the loaded value wins (R125, D8) -/

/-- LDAA (R162). -/
def execLdaa (o : Src8) (s : State) : Res :=
  .next (((src8Update s o).setA (src8 s o)).nzv0 (src8 s o))

/-- LDAB (R163). -/
def execLdab (o : Src8) (s : State) : Res :=
  .next (((src8Update s o).setB (src8 s o)).nzv0 (src8 s o))

/-- LDD (R164). -/
def execLdd (o : Src16) (s : State) : Res :=
  .next (((src16Update s o).setD (src16 s o)).nzv0 (src16 s o))

/-- LDS (R165). -/
def execLds (o : Src16) (s : State) : Res :=
  .next (((src16Update s o).setSp (src16 s o)).nzv0 (src16 s o))

/-- LDX (R166). -/
def execLdx (o : Src16) (s : State) : Res :=
  .next (((src16Update s o).setX (src16 s o)).nzv0 (src16 s o))

/-- LDY (R167). -/
def execLdy (o : Src16) (s : State) : Res :=
  .next (((src16Update s o).setY (src16 s o)).nzv0 (src16 s o))

/-! ## Stores -/

/-- Store of a byte: one write at EA, N and Z from it, V = 0 (R161). -/
def storeByte (v : Byte) (m : Mem3) (s : State) : State :=
  (store8 (mem3Update s m) (mem3Ea s m) v).nzv0 v

/-- Store of a word (R161). -/
def storeWord (v : Word) (m : Mem3) (s : State) : State :=
  (store16 (mem3Update s m) (mem3Ea s m) v).nzv0 v

/-- The value that a store of register `r` stores: the register at the start, or a free value when the operand
pre-modifies that register (R125, D8, U13). -/
def storedRegister (r : AReg) (m : Mem3) (s : State) : Word :=
  if preModifies r m then Config.freeWord s.free .stored else areg s r

/-- STAA (R170). -/
def execStaa (m : Mem3) (s : State) : Res := .next (storeByte s.a m s)

/-- STAB (R171). -/
def execStab (m : Mem3) (s : State) : Res := .next (storeByte s.b m s)

/-- STD (R172). -/
def execStd (m : Mem3) (s : State) : Res := .next (storeWord s.d m s)

/-- STS (R173). -/
def execSts (m : Mem3) (s : State) : Res := .next (storeWord (storedRegister .sp m s) m s)

/-- STX (R174). -/
def execStx (m : Mem3) (s : State) : Res := .next (storeWord (storedRegister .x m s) m s)

/-- STY (R175). -/
def execSty (m : Mem3) (s : State) : Res := .next (storeWord (storedRegister .y m s) m s)

/-! ## Transfers that set flags -/

/-- TAB (R180). -/
def execTab (s : State) : Res := .next ((s.setB s.a).nzv0 s.a)

/-- TBA (R181). -/
def execTba (s : State) : Res := .next ((s.setA s.b).nzv0 s.b)

end Sys2Proof.Machine
end

