-- ==== Sys2Proof/Machine/Logic.lean ====
section
/-! DEFINITION. Boolean logic, clear, complement, negate and bit manipulation (42_logic_bit.md). -/

namespace Sys2Proof.Machine

/-- ANDA (R291). -/
def execAnda (o : Src8) (s : State) : Res :=
  .next (((src8Update s o).setA (s.a &&& src8 s o)).nzv0 (s.a &&& src8 s o))

/-- ANDB (R292). -/
def execAndb (o : Src8) (s : State) : Res :=
  .next (((src8Update s o).setB (s.b &&& src8 s o)).nzv0 (s.b &&& src8 s o))

/-- EORA (R293). -/
def execEora (o : Src8) (s : State) : Res :=
  .next (((src8Update s o).setA (s.a ^^^ src8 s o)).nzv0 (s.a ^^^ src8 s o))

/-- EORB (R294). -/
def execEorb (o : Src8) (s : State) : Res :=
  .next (((src8Update s o).setB (s.b ^^^ src8 s o)).nzv0 (s.b ^^^ src8 s o))

/-- ORAA (R295). -/
def execOraa (o : Src8) (s : State) : Res :=
  .next (((src8Update s o).setA (s.a ||| src8 s o)).nzv0 (s.a ||| src8 s o))

/-- ORAB (R296). -/
def execOrab (o : Src8) (s : State) : Res :=
  .next (((src8Update s o).setB (s.b ||| src8 s o)).nzv0 (s.b ||| src8 s o))

/-- BITA (R297): the result is discarded. -/
def execBita (o : Src8) (s : State) : Res := .next ((src8Update s o).nzv0 (s.a &&& src8 s o))

/-- BITB (R298). -/
def execBitb (o : Src8) (s : State) : Res := .next ((src8Update s o).nzv0 (s.b &&& src8 s o))

/-! ## Clear, complement, negate -/

/-- CLR (R300): a write without a read. -/
def execClr (m : Mem2) (s : State) : Res :=
  .next ((store8 (mem2Update s m) (mem2Ea s m) 0).nzvc cleared)

/-- CLRA (R301). -/
def execClra (s : State) : Res := .next ((s.setA 0).nzvc cleared)

/-- CLRB (R302). -/
def execClrb (s : State) : Res := .next ((s.setB 0).nzvc cleared)

/-- Read-modify-write of one byte with N, Z, V, C of `f` (41_arith.md R222): read, then write at the same EA. -/
def modifyByte (f : Byte → Alu 8) (m : Mem2) (s : State) : State :=
  let r := f (read8 s .operand (mem2Ea s m))
  (store8 (mem2Update s m) (mem2Ea s m) r.r).nzvc r

/-- The same on A. -/
def modifyA (f : Byte → Alu 8) (s : State) : State := (s.setA (f s.a).r).nzvc (f s.a)

/-- The same on B. -/
def modifyB (f : Byte → Alu 8) (s : State) : State := (s.setB (f s.b).r).nzvc (f s.b)

/-- COM (R303). -/
def execCom (m : Mem2) (s : State) : Res := .next (modifyByte complement m s)

/-- COMA (R304). -/
def execComa (s : State) : Res := .next (modifyA complement s)

/-- COMB (R305). -/
def execComb (s : State) : Res := .next (modifyB complement s)

/-- NEG (R306). -/
def execNeg (m : Mem2) (s : State) : Res := .next (modifyByte negate m s)

/-- NEGA (R307). -/
def execNega (s : State) : Res := .next (modifyA negate s)

/-- NEGB (R308). -/
def execNegb (s : State) : Res := .next (modifyB negate s)

/-! ## Bits of memory -/

/-- Read-modify-write of BSET and BCLR: N and Z from the byte written, V = 0 (R310). -/
def modifyBits (f : Byte → Byte) (m : BitEa) (s : State) : State :=
  let r := f (read8 s .operand (bitEa s m))
  (store8 (bitUpdate s m) (bitEa s m) r).nzv0 r

/-- BSET (R312). -/
def execBset (m : BitEa) (mask : Byte) (s : State) : Res := .next (modifyBits (· ||| mask) m s)

/-- BCLR (R311). -/
def execBclr (m : BitEa) (mask : Byte) (s : State) : Res := .next (modifyBits (· &&& ~~~mask) m s)

end Sys2Proof.Machine
end

