-- ==== Sys2Proof/Machine/MinMax.lean ====
section
/-! DEFINITION. Minimum and maximum, EMACS, TBL and ETBL (45_fuzzy_minmax_mac_tbl.md R430 to R452). -/

namespace Sys2Proof.Machine

/-! ## Minimum and maximum: the flags are those of accumulator minus memory (R430) -/

/-- The byte operand. -/
def mmByte (m : IdxI) (s : State) : Byte := read8 s .operand (idxIEa s m)

/-- The word operand. -/
def mmWord (m : IdxI) (s : State) : Word := read16 s .operand (idxIEa s m)

/-- MAXA (R431). -/
def execMaxa (m : IdxI) (s : State) : Res :=
  let r := subb s.a (mmByte m s) false
  .next (((idxIUpdate s m).setA (if r.c then mmByte m s else s.a)).nzvc r)

/-- MINA (R432). -/
def execMina (m : IdxI) (s : State) : Res :=
  let r := subb s.a (mmByte m s) false
  .next (((idxIUpdate s m).setA (if r.c then s.a else mmByte m s)).nzvc r)

/-- MAXM (R433): the write happens even when memory keeps its value. -/
def execMaxm (m : IdxI) (s : State) : Res :=
  let r := subb s.a (mmByte m s) false
  .next ((store8 (idxIUpdate s m) (idxIEa s m) (if r.c then mmByte m s else s.a)).nzvc r)

/-- MINM (R434). -/
def execMinm (m : IdxI) (s : State) : Res :=
  let r := subb s.a (mmByte m s) false
  .next ((store8 (idxIUpdate s m) (idxIEa s m) (if r.c then s.a else mmByte m s)).nzvc r)

/-- EMAXD (R435). -/
def execEmaxd (m : IdxI) (s : State) : Res :=
  let r := subb s.d (mmWord m s) false
  .next (((idxIUpdate s m).setD (if r.c then mmWord m s else s.d)).nzvc r)

/-- EMIND (R436). -/
def execEmind (m : IdxI) (s : State) : Res :=
  let r := subb s.d (mmWord m s) false
  .next (((idxIUpdate s m).setD (if r.c then s.d else mmWord m s)).nzvc r)

/-- EMAXM (R437). -/
def execEmaxm (m : IdxI) (s : State) : Res :=
  let r := subb s.d (mmWord m s) false
  .next ((store16 (idxIUpdate s m) (idxIEa s m) (if r.c then mmWord m s else s.d)).nzvc r)

/-- EMINM (R438). -/
def execEminm (m : IdxI) (s : State) : Res :=
  let r := subb s.d (mmWord m s) false
  .next ((store16 (idxIUpdate s m) (idxIEa s m) (if r.c then s.d else mmWord m s)).nzvc r)

/-! ## Multiply and accumulate -/

/-- The 32-bit accumulator of EMACS, high word first (20_memory.md R62). -/
def emacsAccumulator (s : State) (addr : Word) : BitVec 32 :=
  read16 s .third addr ++ read16 s .fourth (addr + 2)

/-- The signed product of the words at X and Y (R445). -/
def emacsProduct (s : State) : BitVec 32 :=
  (read16 s .operand s.x).signExtend 32 * (read16 s .second s.y).signExtend 32

/-- The flags of the 32-bit addition `r = m + i`: V of 32 bits, C the carry out of bit 15 (R445). -/
def emacsFlags (s : State) (m i r : BitVec 32) : State :=
  s.setCcr (putNZVC s.ccr (isNeg r) (isZero r)
    ((m.msb && i.msb && !r.msb) || (!m.msb && !i.msb && r.msb))
    ((m.getLsbD 15 && i.getLsbD 15) || (i.getLsbD 15 && !r.getLsbD 15) || (!r.getLsbD 15 && m.getLsbD 15)))

/-- EMACS (R445): two word writes, high word first. -/
def execEmacs (addr : Word) (s : State) : Res :=
  let m := emacsAccumulator s addr
  let i := emacsProduct s
  let r := m + i
  .next (emacsFlags (store16 (store16 s addr (r.extractLsb' 16 16)) (addr + 2) (r.extractLsb' 0 16)) m i r)

/-! ## Table lookup and interpolation -/

/-- C after TBL and ETBL: bit 7 of the exact sum on HCS12, free on M68HC12 (R451, R452, U8). -/
def roundUpFlag (s : State) (t : Int) : Bool :=
  match s.cfg.variant with
  | .hcs12 => t / 128 % 2 == 1
  | .m68hc12 => freeFlag s 0

/-- `y1 × 256 + B × (y2 − y1)`, exact (R451, D13). -/
def interpolate {w : Nat} (y1 y2 : BitVec w) (b : Byte) : Int :=
  (y1.toNat : Int) * 256 + (b.toNat : Int) * ((y2.toNat : Int) - (y1.toNat : Int))

/-- TBL (R451): the entries are the bytes at EA and EA + 1, two byte reads on both variants, as the pseudocode and
20_memory.md R67 have them. R451's prose says that the HCS12 reads both with one 16-bit access; the model lets a BDM
command come between the two there too (DESIGN CHOICE, log 38). -/
def execTbl (m : Idx) (s : State) : Res :=
  let ea := idxEa s s.pc m
  let t := interpolate (read8 s .operand ea) (read8 s .second (ea + 1)) s.b
  let r : Byte := BitVec.ofInt 8 (t / 256)
  .next (((idxUpdate s m).setA r).setCcr (putNZC s.ccr (isNeg r) (isZero r) (roundUpFlag s t)))

/-- ETBL (R452): the entries are the words at EA and EA + 2. -/
def execEtbl (m : Idx) (s : State) : Res :=
  let ea := idxEa s s.pc m
  let t := interpolate (read16 s .operand ea) (read16 s .second (ea + 2)) s.b
  let r : Word := BitVec.ofInt 16 (t / 256)
  .next (((idxUpdate s m).setD r).setCcr (putNZC s.ccr (isNeg r) (isZero r) (roundUpFlag s t)))

end Sys2Proof.Machine
end

