-- ==== Sys2Proof/Machine/Move.lean ====
section
/-! DEFINITION. MOVB and MOVW (40_load_store_move.md R195 to R198). -/

namespace Sys2Proof.Machine

/-- The value that PC stands for in a postbyte of a move: PCnext on HCS12, PCnext + `k` on M68HC12 (R196). -/
def movePc (s : State) (k : Word) : Word :=
  match s.cfg.variant with
  | .hcs12 => s.pc
  | .m68hc12 => s.pc + k

/-- `k` of Table 3-3 for an indexed source: −2 to an extended destination, −1 to an indexed one (R196). -/
def sourceOffset : MovDst → Word
  | .ext _ => -2
  | .ix _ => -1

/-- `k` of Table 3-3 for an indexed destination of MOVB: +1 from an immediate or indexed source, +2 from an extended
one. -/
def destOffset8 : MovSrc8 → Word
  | .imm _ => 1
  | .ext _ => 2
  | .ix _ => 1

/-- `k` of Table 3-3 for an indexed destination of MOVW: +2 from an immediate or extended source, +1 from an indexed
one. -/
def destOffset16 : MovSrc16 → Word
  | .imm _ => 2
  | .ext _ => 2
  | .ix _ => 1

/-- The byte that MOVB moves, read first (R198). -/
def moveSource8 (s : State) (dst : MovDst) : MovSrc8 → Byte
  | .imm v => v
  | .ext a => read8 s .operand a
  | .ix m => read8 s .operand (idxEa s (movePc s (sourceOffset dst)) m)

/-- The word that MOVW moves (R197, R198). -/
def moveSource16 (s : State) (dst : MovDst) : MovSrc16 → Word
  | .imm v => v
  | .ext a => read16 s .operand a
  | .ix m => read16 s .operand (idxEa s (movePc s (sourceOffset dst)) m)

/-- The register update of the source of MOVB. -/
def moveSource8Update (s : State) : MovSrc8 → State
  | .imm _ => s
  | .ext _ => s
  | .ix m => idxUpdate s m

/-- The register update of the source of MOVW. -/
def moveSource16Update (s : State) : MovSrc16 → State
  | .imm _ => s
  | .ext _ => s
  | .ix m => idxUpdate s m

/-- EA of the destination, in the state after the source's update (R198); `k` is its offset of Table 3-3. -/
def moveDestEa (s : State) (k : Word) : MovDst → Word
  | .ext a => a
  | .ix m => idxEa s (movePc s k) m

/-- The register update of the destination. -/
def moveDestUpdate (s : State) : MovDst → State
  | .ext _ => s
  | .ix m => idxUpdate s m

/-- MOVB (R195): no flag changes. -/
def execMovb (src : MovSrc8) (dst : MovDst) (s : State) : Res :=
  let s1 := moveSource8Update s src
  .next (store8 (moveDestUpdate s1 dst) (moveDestEa s1 (destOffset8 src) dst) (moveSource8 s dst src))

/-- MOVW (R197): the whole word is read before either byte is written. -/
def execMovw (src : MovSrc16) (dst : MovDst) (s : State) : Res :=
  let s1 := moveSource16Update s src
  .next (store16 (moveDestUpdate s1 dst) (moveDestEa s1 (destOffset16 src) dst) (moveSource16 s dst src))

end Sys2Proof.Machine
end

