-- ==== Sys2Proof/Machine/MulDiv.lean ====
section
/-! DEFINITION. Multiplication and division (43_muldiv.md). Signed quotients round toward zero and remainders take the
sign of the dividend (R341, D10, log 13). -/

namespace Sys2Proof.Machine

/-- Writes a 32-bit value to the pair Y : D (R340). -/
def setYD (s : State) (v : BitVec 32) : State := (s.setY (v.extractLsb' 16 16)).setD (v.extractLsb' 0 16)

/-- The pair Y : D (R340). -/
def yd (s : State) : BitVec 32 := s.y ++ s.d

/-- N, Z and C of a 32-bit product: Z over all 32 bits, C its bit 15 (R346). -/
def productFlags (s : State) (p : BitVec 32) : State := s.setCcr (putNZC s.ccr (isNeg p) (isZero p) (p.getLsbD 15))

/-- MUL (R345): C is bit 7 of the product. -/
def execMul (s : State) : Res :=
  let p := zext16 s.a * zext16 s.b
  .next ((s.setD p).setCcr (putBit s.ccr 0 (p.getLsbD 7)))

/-- EMUL (R346). -/
def execEmul (s : State) : Res :=
  let p := s.d.setWidth 32 * s.y.setWidth 32
  .next (productFlags (setYD s p) p)

/-- EMULS (R347). -/
def execEmuls (s : State) : Res :=
  let p := s.d.signExtend 32 * s.y.signExtend 32
  .next (productFlags (setYD s p) p)

/-! ## Division -/

/-- Division by zero in EDIV, EDIVS, IDIVS: C = 1, N, Z and V free, no register changes (R350, R351, R354, U6). -/
def divideByZero (s : State) : State :=
  s.setCcr (putNZVC s.ccr (freeFlag s 3) (freeFlag s 2) (freeFlag s 1) true)

/-- Flags of a quotient out of range: V = 1, C = 0, N and Z free (R350, R351, R354, U6). -/
def overflowFlags (s : State) : State := s.setCcr (putNZVC s.ccr (freeFlag s 3) (freeFlag s 2) true false)

/-- Flags of a quotient in range: N and Z from it, V = 0, C = 0 (R350, R351, R354). -/
def quotientFlags (s : State) (q : Word) : State := s.setCcr (putNZVC s.ccr (isNeg q) (isZero q) false false)

/-- EDIV (R350); after an overflow Y and D are free values (D11, U9). -/
def execEdiv (s : State) : Res :=
  let n := (yd s).toNat
  let k := s.x.toNat
  if k = 0 then .next (divideByZero s)
  else if n / k > 0xFFFF then
    .next (overflowFlags ((s.setY (Config.freeWord s.free .result)).setD (Config.freeWord s.free .remainder)))
  else .next (quotientFlags ((s.setY (BitVec.ofNat 16 (n / k))).setD (BitVec.ofNat 16 (n % k))) (BitVec.ofNat 16 (n / k)))

/-- EDIVS (R351). -/
def execEdivs (s : State) : Res :=
  let n := (yd s).toInt
  let k := s.x.toInt
  if k = 0 then .next (divideByZero s)
  else if n.tdiv k > 32767 ∨ n.tdiv k < -32768 then
    .next (overflowFlags ((s.setY (Config.freeWord s.free .result)).setD (Config.freeWord s.free .remainder)))
  else
    .next (quotientFlags ((s.setY (BitVec.ofInt 16 (n.tdiv k))).setD (BitVec.ofInt 16 (n.tmod k)))
      (BitVec.ofInt 16 (n.tdiv k)))

/-- Z, V and C of FDIV and IDIV; N is unchanged (R352, R353). -/
def fractionFlags (s : State) (z v c : Bool) : State := s.setCcr (putBit (putBit (putZ s.ccr z) 1 v) 0 c)

/-- FDIV (R352): with a numerator not below the denominator X is $FFFF, D a free value (U7), V = 1. -/
def execFdiv (s : State) : Res :=
  let n := s.d.toNat
  let k := s.x.toNat
  if k ≤ n then
    .next (fractionFlags ((s.setX 0xFFFF).setD (Config.freeWord s.free .remainder)) false true (k == 0))
  else
    .next (fractionFlags ((s.setX (BitVec.ofNat 16 (n * 65536 / k))).setD (BitVec.ofNat 16 (n * 65536 % k)))
      (n * 65536 / k == 0) false false)

/-- IDIV (R353): division by zero leaves X = $FFFF and D a free value (U7). -/
def execIdiv (s : State) : Res :=
  let n := s.d.toNat
  let k := s.x.toNat
  if k = 0 then
    .next (fractionFlags ((s.setX 0xFFFF).setD (Config.freeWord s.free .remainder)) false false true)
  else
    .next (fractionFlags ((s.setX (BitVec.ofNat 16 (n / k))).setD (BitVec.ofNat 16 (n % k))) (n / k == 0) false false)

/-- IDIVS (R354): $8000 ÷ $FFFF is the only overflow. -/
def execIdivs (s : State) : Res :=
  let n := s.d.toInt
  let k := s.x.toInt
  if k = 0 then .next (divideByZero s)
  else if s.d = 0x8000 ∧ s.x = 0xFFFF then
    .next (overflowFlags ((s.setX (Config.freeWord s.free .result)).setD (Config.freeWord s.free .remainder)))
  else
    .next (quotientFlags ((s.setX (BitVec.ofInt 16 (n.tdiv k))).setD (BitVec.ofInt 16 (n.tmod k)))
      (BitVec.ofInt 16 (n.tdiv k)))

end Sys2Proof.Machine
end

