-- ==== Sys2Proof/Machine/Shift.lean ====
section
/-! DEFINITION. Shifts and rotates (44_shift_rotate.md). -/

namespace Sys2Proof.Machine

/-- Shift of D by one place (R378, R386). -/
def modifyD (f : Word → Alu 16) (s : State) : State := (s.setD (f s.d).r).nzvc (f s.d)

/-! ## Left shifts -/

/-- ASL (R375). -/
def execAsl (m : Mem2) (s : State) : Res := .next (modifyByte shiftLeft m s)

/-- LSL (R372): the same operation as ASL. -/
def execLsl (m : Mem2) (s : State) : Res := .next (modifyByte shiftLeft m s)

/-- ASLA (R376). -/
def execAsla (s : State) : Res := .next (modifyA shiftLeft s)

/-- LSLA (R372): the same operation as ASLA. -/
def execLsla (s : State) : Res := .next (modifyA shiftLeft s)

/-- ASLB (R377). -/
def execAslb (s : State) : Res := .next (modifyB shiftLeft s)

/-- LSLB (R372): the same operation as ASLB. -/
def execLslb (s : State) : Res := .next (modifyB shiftLeft s)

/-- ASLD (R378). -/
def execAsld (s : State) : Res := .next (modifyD shiftLeft s)

/-- LSLD (R372): the same operation as ASLD. -/
def execLsld (s : State) : Res := .next (modifyD shiftLeft s)

/-! ## Right shifts -/

/-- ASR (R380). -/
def execAsr (m : Mem2) (s : State) : Res := .next (modifyByte shiftRightArith m s)

/-- ASRA (R381). -/
def execAsra (s : State) : Res := .next (modifyA shiftRightArith s)

/-- ASRB (R382). -/
def execAsrb (s : State) : Res := .next (modifyB shiftRightArith s)

/-- LSR (R383). -/
def execLsr (m : Mem2) (s : State) : Res := .next (modifyByte shiftRightLogic m s)

/-- LSRA (R384). -/
def execLsra (s : State) : Res := .next (modifyA shiftRightLogic s)

/-- LSRB (R385). -/
def execLsrb (s : State) : Res := .next (modifyB shiftRightLogic s)

/-- LSRD (R386). -/
def execLsrd (s : State) : Res := .next (modifyD shiftRightLogic s)

/-! ## Rotates through C -/

/-- ROL (R390). -/
def execRol (m : Mem2) (s : State) : Res := .next (modifyByte (rotateLeft · s.flagC) m s)

/-- ROLA (R391). -/
def execRola (s : State) : Res := .next (modifyA (rotateLeft · s.flagC) s)

/-- ROLB (R392). -/
def execRolb (s : State) : Res := .next (modifyB (rotateLeft · s.flagC) s)

/-- ROR (R393). -/
def execRor (m : Mem2) (s : State) : Res := .next (modifyByte (rotateRight · s.flagC) m s)

/-- RORA (R394). -/
def execRora (s : State) : Res := .next (modifyA (rotateRight · s.flagC) s)

/-- RORB (R395). -/
def execRorb (s : State) : Res := .next (modifyB (rotateRight · s.flagC) s)

end Sys2Proof.Machine
end

