-- ==== Sys2Proof/Machine/Stack.lean ====
section
/-! DEFINITION. LEAS, LEAX, LEAY, pushes and pulls (48_index_stack_lea.md). -/

namespace Sys2Proof.Machine

/-! ## Load effective address: the register is loaded last, so a post-modify of it is lost (R568) -/

/-- LEAS (R566). -/
def execLeas (m : IdxX) (s : State) : Res := .next ((idxXUpdate s m).setSp (idxXEa s m))

/-- LEAX (R567). -/
def execLeax (m : IdxX) (s : State) : Res := .next ((idxXUpdate s m).setX (idxXEa s m))

/-- LEAY (R567). -/
def execLeay (m : IdxX) (s : State) : Res := .next ((idxXUpdate s m).setY (idxXEa s m))

/-! ## Pushes -/

/-- PSHA (R576). -/
def execPsha (s : State) : Res := .next (push8 s s.a)

/-- PSHB (R577). -/
def execPshb (s : State) : Res := .next (push8 s s.b)

/-- PSHC (R578). -/
def execPshc (s : State) : Res := .next (push8 s s.ccr)

/-- PSHD (R579). -/
def execPshd (s : State) : Res := .next (push16 s s.d)

/-- PSHX (R580). -/
def execPshx (s : State) : Res := .next (push16 s s.x)

/-- PSHY (R581). -/
def execPshy (s : State) : Res := .next (push16 s s.y)

/-! ## Pulls -/

/-- PULA (R582). -/
def execPula (s : State) : Res := .next ((drop s 1).setA (top8 s))

/-- PULB (R583). -/
def execPulb (s : State) : Res := .next ((drop s 1).setB (top8 s))

/-- PULC (R584). -/
def execPulc (s : State) : Res := .next ((drop s 1).loadCcr (top8 s))

/-- PULD (R585). -/
def execPuld (s : State) : Res := .next ((drop s 2).setD (top16 s))

/-- PULX (R586). -/
def execPulx (s : State) : Res := .next ((drop s 2).setX (top16 s))

/-- PULY (R587). -/
def execPuly (s : State) : Res := .next ((drop s 2).setY (top16 s))

end Sys2Proof.Machine
end

