-- ==== Sys2Proof/Machine/Transfer.lean ====
section
/-! DEFINITION. Opcode $B7, TFR and EXG, and its translated mnemonics (40_load_store_move.md R182 to R194). -/

namespace Sys2Proof.Machine

/-- Whether a register of TFR and EXG is 8 bits wide (R186). -/
def is8 : TReg → Bool
  | .a | .b | .ccr => true
  | .tmp | .d | .x | .y | .sp => false

/-- The value of an 8-bit register; a 16-bit one answers its low byte (R187). -/
def treg8 (s : State) (tmp : Word) : TReg → Byte
  | .a => s.a
  | .b => s.b
  | .ccr => s.ccr
  | .tmp => loByte tmp
  | .d => s.b
  | .x => loByte s.x
  | .y => loByte s.y
  | .sp => loByte s.sp

/-- The value of a 16-bit register; an 8-bit one is sign-extended (R187, R188). `tmp` is the free value that code 3
reads (R190, U11). -/
def treg16 (s : State) (tmp : Word) : TReg → Word
  | .a => sext16 s.a
  | .b => sext16 s.b
  | .ccr => sext16 s.ccr
  | .tmp => tmp
  | .d => s.d
  | .x => s.x
  | .y => s.y
  | .sp => s.sp

/-- Writes an 8-bit register, the CCR under the X-bit protection rule (R186); no effect for a 16-bit one. -/
def setTreg8 (s : State) (v : Byte) : TReg → State
  | .a => s.setA v
  | .b => s.setB v
  | .ccr => s.loadCcr v
  | .tmp | .d | .x | .y | .sp => s

/-- Writes a 16-bit register; code 3 is TMP2 as second operand and TMP3 as first (R186, R190). -/
def setTreg16 (s : State) (v : Word) (first : Bool) : TReg → State
  | .a | .b | .ccr => s
  | .tmp => if first then { s with tmp3 := v } else { s with tmp2 := v }
  | .d => s.setD v
  | .x => s.setX v
  | .y => s.setY v
  | .sp => s.setSp v

/-- What TMP3 reads as: a free value (R190, U11). -/
def readTmp3 (s : State) : Word := Config.freeWord s.free .temporary

/-- What TMP2 reads as: a free value (R190, U11). -/
def readTmp2 (s : State) : Word := Config.freeWord s.free .temporary2

/-- TFR `src,dst` (R187): low byte into an 8-bit register, sign extension into a 16-bit one. -/
def transfer (src dst : TReg) (s : State) : State :=
  if is8 dst then setTreg8 s (treg8 s (readTmp3 s) src) dst
  else setTreg16 s (treg16 s (readTmp3 s) src) false dst

/-- EXG `r1,r2` (R189), cell by cell of the glossary's table: equal widths exchange; an 8-bit first operand goes into
the second with a high byte of $00; an 8-bit second operand goes into the first with a high byte of $00 for A and $FF
for B and CCR; A with D and D with A are the two exceptions. -/
def exchange (r1 r2 : TReg) (s : State) : State :=
  let v8 := treg8 s (readTmp3 s) r1
  let w8 := treg8 s (readTmp2 s) r2
  let v16 := treg16 s (readTmp3 s) r1
  let w16 := treg16 s (readTmp2 s) r2
  match is8 r1, is8 r2 with
  | true, true => setTreg8 (setTreg8 s w8 r1) v8 r2
  | false, false => setTreg16 (setTreg16 s w16 true r1) v16 false r2
  | true, false =>
      if r1 = .a ∧ r2 = .d then s.setD (joinBytes 0x00 s.a)
      else setTreg8 (setTreg16 s (joinBytes 0x00 v8) false r2) w8 r1
  | false, true =>
      if r1 = .d ∧ r2 = .a then (s.setA s.b).setB s.a
      else setTreg8 (setTreg16 s (joinBytes (if r2 = .a then 0x00 else 0xFF) w8) true r1) v8 r2

/-- TFR (R187). -/
def execTfr (src dst : TReg) (s : State) : Res := .next (transfer src dst s)

/-- EXG (R189). -/
def execExg (r1 r2 : TReg) (s : State) : Res := .next (exchange r1 r2 s)

/-- SEX (R188): TFR from an 8-bit to a 16-bit register. -/
def execSex (src : Abc) (dst : Dxys) (s : State) : Res := .next (transfer src.toTReg dst.toTReg s)

/-- TAP (R182): TFR A,CCR. -/
def execTap (s : State) : Res := .next (transfer .a .ccr s)

/-- TPA (R183): TFR CCR,A. -/
def execTpa (s : State) : Res := .next (transfer .ccr .a s)

/-- TSX (R184): TFR SP,X. -/
def execTsx (s : State) : Res := .next (transfer .sp .x s)

/-- TSY (R185): TFR SP,Y. -/
def execTsy (s : State) : Res := .next (transfer .sp .y s)

/-- TXS (R191): TFR X,SP. -/
def execTxs (s : State) : Res := .next (transfer .x .sp s)

/-- TYS (R192): TFR Y,SP. -/
def execTys (s : State) : Res := .next (transfer .y .sp s)

/-- XGDX (R193): EXG D,X. -/
def execXgdx (s : State) : Res := .next (exchange .d .x s)

/-- XGDY (R194): EXG D,Y. -/
def execXgdy (s : State) : Res := .next (exchange .d .y s)

end Sys2Proof.Machine
end

