-- ==== Sys2Proof/Machine/Dispatch.lean ====
section
/-! DEFINITION. The dispatch: one arm for each instruction, each one call of its meaning. -/

namespace Sys2Proof.Machine

def exec (i : Instr) (s : State) : Host.Outcome State Fault Refusal :=
  match i with
  | .ldaa o => Sys2Proof.Machine.execLdaa o s
  | .ldab o => Sys2Proof.Machine.execLdab o s
  | .ldd o => Sys2Proof.Machine.execLdd o s
  | .lds o => Sys2Proof.Machine.execLds o s
  | .ldx o => Sys2Proof.Machine.execLdx o s
  | .ldy o => Sys2Proof.Machine.execLdy o s
  | .staa m => Sys2Proof.Machine.execStaa m s
  | .stab m => Sys2Proof.Machine.execStab m s
  | .std m => Sys2Proof.Machine.execStd m s
  | .sts m => Sys2Proof.Machine.execSts m s
  | .stx m => Sys2Proof.Machine.execStx m s
  | .sty m => Sys2Proof.Machine.execSty m s
  | .tab => Sys2Proof.Machine.execTab s
  | .tba => Sys2Proof.Machine.execTba s
  | .tfr src dst => Sys2Proof.Machine.execTfr src dst s
  | .exg r1 r2 => Sys2Proof.Machine.execExg r1 r2 s
  | .sex src dst => Sys2Proof.Machine.execSex src dst s
  | .tap => Sys2Proof.Machine.execTap s
  | .tpa => Sys2Proof.Machine.execTpa s
  | .tsx => Sys2Proof.Machine.execTsx s
  | .tsy => Sys2Proof.Machine.execTsy s
  | .txs => Sys2Proof.Machine.execTxs s
  | .tys => Sys2Proof.Machine.execTys s
  | .xgdx => Sys2Proof.Machine.execXgdx s
  | .xgdy => Sys2Proof.Machine.execXgdy s
  | .movb src dst => Sys2Proof.Machine.execMovb src dst s
  | .movw src dst => Sys2Proof.Machine.execMovw src dst s
  | .aba => Sys2Proof.Machine.execAba s
  | .abx => Sys2Proof.Machine.execAbx s
  | .aby => Sys2Proof.Machine.execAby s
  | .adca o => Sys2Proof.Machine.execAdca o s
  | .adcb o => Sys2Proof.Machine.execAdcb o s
  | .adda o => Sys2Proof.Machine.execAdda o s
  | .addb o => Sys2Proof.Machine.execAddb o s
  | .addd o => Sys2Proof.Machine.execAddd o s
  | .sba => Sys2Proof.Machine.execSba s
  | .sbca o => Sys2Proof.Machine.execSbca o s
  | .sbcb o => Sys2Proof.Machine.execSbcb o s
  | .suba o => Sys2Proof.Machine.execSuba o s
  | .subb o => Sys2Proof.Machine.execSubb o s
  | .subd o => Sys2Proof.Machine.execSubd o s
  | .daa => Sys2Proof.Machine.execDaa s
  | .dec m => Sys2Proof.Machine.execDec m s
  | .deca => Sys2Proof.Machine.execDeca s
  | .decb => Sys2Proof.Machine.execDecb s
  | .des => Sys2Proof.Machine.execDes s
  | .dex => Sys2Proof.Machine.execDex s
  | .dey => Sys2Proof.Machine.execDey s
  | .inc m => Sys2Proof.Machine.execInc m s
  | .inca => Sys2Proof.Machine.execInca s
  | .incb => Sys2Proof.Machine.execIncb s
  | .ins => Sys2Proof.Machine.execIns s
  | .inx => Sys2Proof.Machine.execInx s
  | .iny => Sys2Proof.Machine.execIny s
  | .cba => Sys2Proof.Machine.execCba s
  | .cmpa o => Sys2Proof.Machine.execCmpa o s
  | .cmpb o => Sys2Proof.Machine.execCmpb o s
  | .cpd o => Sys2Proof.Machine.execCpd o s
  | .cps o => Sys2Proof.Machine.execCps o s
  | .cpx o => Sys2Proof.Machine.execCpx o s
  | .cpy o => Sys2Proof.Machine.execCpy o s
  | .tst m => Sys2Proof.Machine.execTst m s
  | .tsta => Sys2Proof.Machine.execTsta s
  | .tstb => Sys2Proof.Machine.execTstb s
  | .anda o => Sys2Proof.Machine.execAnda o s
  | .andb o => Sys2Proof.Machine.execAndb o s
  | .eora o => Sys2Proof.Machine.execEora o s
  | .eorb o => Sys2Proof.Machine.execEorb o s
  | .oraa o => Sys2Proof.Machine.execOraa o s
  | .orab o => Sys2Proof.Machine.execOrab o s
  | .bita o => Sys2Proof.Machine.execBita o s
  | .bitb o => Sys2Proof.Machine.execBitb o s
  | .clr m => Sys2Proof.Machine.execClr m s
  | .clra => Sys2Proof.Machine.execClra s
  | .clrb => Sys2Proof.Machine.execClrb s
  | .com m => Sys2Proof.Machine.execCom m s
  | .coma => Sys2Proof.Machine.execComa s
  | .comb => Sys2Proof.Machine.execComb s
  | .neg m => Sys2Proof.Machine.execNeg m s
  | .nega => Sys2Proof.Machine.execNega s
  | .negb => Sys2Proof.Machine.execNegb s
  | .bset m mask => Sys2Proof.Machine.execBset m mask s
  | .bclr m mask => Sys2Proof.Machine.execBclr m mask s
  | .mul => Sys2Proof.Machine.execMul s
  | .emul => Sys2Proof.Machine.execEmul s
  | .emuls => Sys2Proof.Machine.execEmuls s
  | .ediv => Sys2Proof.Machine.execEdiv s
  | .edivs => Sys2Proof.Machine.execEdivs s
  | .fdiv => Sys2Proof.Machine.execFdiv s
  | .idiv => Sys2Proof.Machine.execIdiv s
  | .idivs => Sys2Proof.Machine.execIdivs s
  | .asl m => Sys2Proof.Machine.execAsl m s
  | .lsl m => Sys2Proof.Machine.execLsl m s
  | .asr m => Sys2Proof.Machine.execAsr m s
  | .lsr m => Sys2Proof.Machine.execLsr m s
  | .rol m => Sys2Proof.Machine.execRol m s
  | .ror m => Sys2Proof.Machine.execRor m s
  | .asla => Sys2Proof.Machine.execAsla s
  | .lsla => Sys2Proof.Machine.execLsla s
  | .aslb => Sys2Proof.Machine.execAslb s
  | .lslb => Sys2Proof.Machine.execLslb s
  | .asld => Sys2Proof.Machine.execAsld s
  | .lsld => Sys2Proof.Machine.execLsld s
  | .asra => Sys2Proof.Machine.execAsra s
  | .asrb => Sys2Proof.Machine.execAsrb s
  | .lsra => Sys2Proof.Machine.execLsra s
  | .lsrb => Sys2Proof.Machine.execLsrb s
  | .lsrd => Sys2Proof.Machine.execLsrd s
  | .rola => Sys2Proof.Machine.execRola s
  | .rolb => Sys2Proof.Machine.execRolb s
  | .rora => Sys2Proof.Machine.execRora s
  | .rorb => Sys2Proof.Machine.execRorb s
  | .mem => Sys2Proof.Machine.execMem s
  | .rev => Sys2Proof.Machine.execRev s
  | .revw => Sys2Proof.Machine.execRevw s
  | .wav => Sys2Proof.Machine.execWav s
  | .wavr => Sys2Proof.Machine.execWavr s
  | .maxa m => Sys2Proof.Machine.execMaxa m s
  | .mina m => Sys2Proof.Machine.execMina m s
  | .emaxd m => Sys2Proof.Machine.execEmaxd m s
  | .emind m => Sys2Proof.Machine.execEmind m s
  | .maxm m => Sys2Proof.Machine.execMaxm m s
  | .minm m => Sys2Proof.Machine.execMinm m s
  | .emaxm m => Sys2Proof.Machine.execEmaxm m s
  | .eminm m => Sys2Proof.Machine.execEminm m s
  | .emacs addr => Sys2Proof.Machine.execEmacs addr s
  | .tbl m => Sys2Proof.Machine.execTbl m s
  | .etbl m => Sys2Proof.Machine.execEtbl m s
  | .bra rel => Sys2Proof.Machine.execBra rel s
  | .brn rel => Sys2Proof.Machine.execBrn rel s
  | .bhi rel => Sys2Proof.Machine.execBhi rel s
  | .bls rel => Sys2Proof.Machine.execBls rel s
  | .bcc rel => Sys2Proof.Machine.execBcc rel s
  | .bcs rel => Sys2Proof.Machine.execBcs rel s
  | .bne rel => Sys2Proof.Machine.execBne rel s
  | .beq rel => Sys2Proof.Machine.execBeq rel s
  | .bvc rel => Sys2Proof.Machine.execBvc rel s
  | .bvs rel => Sys2Proof.Machine.execBvs rel s
  | .bpl rel => Sys2Proof.Machine.execBpl rel s
  | .bmi rel => Sys2Proof.Machine.execBmi rel s
  | .bge rel => Sys2Proof.Machine.execBge rel s
  | .blt rel => Sys2Proof.Machine.execBlt rel s
  | .bgt rel => Sys2Proof.Machine.execBgt rel s
  | .ble rel => Sys2Proof.Machine.execBle rel s
  | .bhs rel => Sys2Proof.Machine.execBhs rel s
  | .blo rel => Sys2Proof.Machine.execBlo rel s
  | .lbra rel => Sys2Proof.Machine.execLbra rel s
  | .lbrn rel => Sys2Proof.Machine.execLbrn rel s
  | .lbhi rel => Sys2Proof.Machine.execLbhi rel s
  | .lbls rel => Sys2Proof.Machine.execLbls rel s
  | .lbcc rel => Sys2Proof.Machine.execLbcc rel s
  | .lbcs rel => Sys2Proof.Machine.execLbcs rel s
  | .lbne rel => Sys2Proof.Machine.execLbne rel s
  | .lbeq rel => Sys2Proof.Machine.execLbeq rel s
  | .lbvc rel => Sys2Proof.Machine.execLbvc rel s
  | .lbvs rel => Sys2Proof.Machine.execLbvs rel s
  | .lbpl rel => Sys2Proof.Machine.execLbpl rel s
  | .lbmi rel => Sys2Proof.Machine.execLbmi rel s
  | .lbge rel => Sys2Proof.Machine.execLbge rel s
  | .lblt rel => Sys2Proof.Machine.execLblt rel s
  | .lbgt rel => Sys2Proof.Machine.execLbgt rel s
  | .lble rel => Sys2Proof.Machine.execLble rel s
  | .lbhs rel => Sys2Proof.Machine.execLbhs rel s
  | .lblo rel => Sys2Proof.Machine.execLblo rel s
  | .brset m mask rel => Sys2Proof.Machine.execBrset m mask rel s
  | .brclr m mask rel => Sys2Proof.Machine.execBrclr m mask rel s
  | .dbeq cntr rel => Sys2Proof.Machine.execDbeq cntr rel s
  | .dbne cntr rel => Sys2Proof.Machine.execDbne cntr rel s
  | .tbeq cntr rel => Sys2Proof.Machine.execTbeq cntr rel s
  | .tbne cntr rel => Sys2Proof.Machine.execTbne cntr rel s
  | .ibeq cntr rel => Sys2Proof.Machine.execIbeq cntr rel s
  | .ibne cntr rel => Sys2Proof.Machine.execIbne cntr rel s
  | .jmp m => Sys2Proof.Machine.execJmp m s
  | .bsr rel => Sys2Proof.Machine.execBsr rel s
  | .jsr m => Sys2Proof.Machine.execJsr m s
  | .call dest => Sys2Proof.Machine.execCall dest s
  | .rts => Sys2Proof.Machine.execRts s
  | .rtc => Sys2Proof.Machine.execRtc s
  | .rti => Sys2Proof.Machine.execRti s
  | .swi => Sys2Proof.Machine.execSwi s
  | .trap tn => Sys2Proof.Machine.execTrap tn s
  | .leas m => Sys2Proof.Machine.execLeas m s
  | .leax m => Sys2Proof.Machine.execLeax m s
  | .leay m => Sys2Proof.Machine.execLeay m s
  | .psha => Sys2Proof.Machine.execPsha s
  | .pshb => Sys2Proof.Machine.execPshb s
  | .pshc => Sys2Proof.Machine.execPshc s
  | .pshd => Sys2Proof.Machine.execPshd s
  | .pshx => Sys2Proof.Machine.execPshx s
  | .pshy => Sys2Proof.Machine.execPshy s
  | .pula => Sys2Proof.Machine.execPula s
  | .pulb => Sys2Proof.Machine.execPulb s
  | .pulc => Sys2Proof.Machine.execPulc s
  | .puld => Sys2Proof.Machine.execPuld s
  | .pulx => Sys2Proof.Machine.execPulx s
  | .puly => Sys2Proof.Machine.execPuly s
  | .andcc mask => Sys2Proof.Machine.execAndcc mask s
  | .orcc mask => Sys2Proof.Machine.execOrcc mask s
  | .clc => Sys2Proof.Machine.execClc s
  | .cli => Sys2Proof.Machine.execCli s
  | .clv => Sys2Proof.Machine.execClv s
  | .sec => Sys2Proof.Machine.execSec s
  | .sei => Sys2Proof.Machine.execSei s
  | .sev => Sys2Proof.Machine.execSev s
  | .nop => Sys2Proof.Machine.execNop s
  | .stop => Sys2Proof.Machine.execStop s
  | .wai => Sys2Proof.Machine.execWai s
  | .bgnd => Sys2Proof.Machine.execBgnd s
  | .undefined e => Sys2Proof.Machine.execUndefined e s

end Sys2Proof.Machine
end

