-- ==== Sys2Proof/Machine/Bdm.lean ====
section
/-! DEFINITION. The commands of the background debug module (60_exceptions.md R701 to R708), each one whole command of
the host (R707), taken at a boundary (log 25, log 27). -/

namespace Sys2Proof.Machine

/-! ## Memory with the BDM resources in the map -/

/-- A write to a BDM resource: of STATUS the host changes ENBDM alone (R701, log
27); the ROM and $FF07 to $FF1F keep what they are. -/
def writeBdmResource (s : State) (a : Word) (v : Byte) : State :=
  let b := s.bdm
  if a = 0xFF00 then { s with bdm := { b with instr := v } }
  else if a = 0xFF01 then { s with bdm := { b with status := putBit b.status 7 (v.getLsbD 7) } }
  else if a = 0xFF02 then { s with bdm := { b with shift := joinBytes v (loByte b.shift) } }
  else if a = 0xFF03 then { s with bdm := { b with shift := joinBytes (hiByte b.shift) v } }
  else if a = 0xFF04 then { s with bdm := { b with addr := joinBytes v (loByte b.addr) } }
  else if a = 0xFF05 then { s with bdm := { b with addr := joinBytes (hiByte b.addr) v } }
  else if a = 0xFF06 then { s with bdm := { b with ccr := v } }
  else s

/-- A byte written to a target of that map. -/
def writeMapTarget (s : State) (t : MapTarget) (v : Byte) : State :=
  match t with
  | .bdm a => writeBdmResource s a v
  | .user t => writeTarget s t v

/-- A byte written with the BDM resources in the map. -/
def write8InMap (s : State) (a : Word) (v : Byte) : State := writeMapTarget s (locateInMap s a) v

/-- A word written with the BDM resources in the map; both bytes are located before either is written, as in `write16`
(log 31). -/
def write16InMap (s : State) (a : Word) (v : Word) : State :=
  writeMapTarget (writeMapTarget s (locateInMap s a) (hiByte v)) (locateInMap s (a + 1)) (loByte v)

/-! ## Hardware commands (R705) -/

/-- The opcode and the address go into their registers (R702, R703). -/
def bdmLatch (s : State) (op : Byte) (addr : Word) : State := { s with bdm := { s.bdm with instr := op, addr := addr } }

/-- Data received or to be transmitted: the shift register holds it, and SDV says that it is valid (R701, R703). -/
def setShift (s : State) (v : Word) : State :=
  { s with bdm := { s.bdm with shift := v, status := putBit s.bdm.status 4 true } }

/-- A command that begins: no valid data is in the shift register yet (R701; DESIGN CHOICE, log 26). -/
def beginCommand (s : State) : State := { s with bdm := { s.bdm with status := putBit s.bdm.status 4 false } }

/-- "Data for odd address on low byte, data for even address on high byte"; the other byte is a don't-care, a free one
of a draw of its own. -/
def byteOut (s : State) (addr : Word) (v : Byte) : State :=
  let other := Config.freeByte s.free .hostOther addr
  setShift s (if addr.getLsbD 0 then joinBytes other v else joinBytes v other)

/-- The data byte of a write command. -/
def byteIn (addr data : Word) : Byte := if addr.getLsbD 0 then loByte data else hiByte data

/-- BACKGROUND, or a forced breakpoint (R705, R716): BDM is asked for at the next instruction boundary. -/
def requestBdm (s : State) : State :=
  if s.run = .bdmActive then s else { s with bdm := { s.bdm with request := true } }

/-- A word command: "Must be aligned access", so an odd address is refused (U27). -/
def ifAligned (addr : Word) (s : State) : Except Refusal State :=
  if addr.getLsbD 0 then .error .misalignedBdmWord else .ok s

/-! ## Firmware commands (R706) -/

/-- Leaving BDM: the CCR comes back from its holding register, the ROM leaves the map, the PC is TMP2 (R704, R706;
49_ccr_stop_misc.md R635 (c)). The firmware has used the temporary registers, which are free (U30, D19). A CCR that the
host has changed so that I goes from 1 to 0 starts no I-clear delay, of which R740 speaks for instructions only (DESIGN
CHOICE, log 22). -/
def leaveBdm (s : State) : State :=
  let t := { s.loadCcr s.bdm.ccr with
    run := .running
    bdm := { s.bdm with status := putBit s.bdm.status 6 false }
    tmp1 := Config.freeWord s.free .firmware1
    tmp2 := Config.freeWord s.free .firmware2
    tmp3 := Config.freeWord s.free .firmware3 }
  jump t s.tmp2

/-- TRACE1: TRACE is set until one instruction has executed. -/
def startTrace (s : State) : State :=
  { s with bdm := { s.bdm with status := putBit s.bdm.status 3 true, tracing := true } }

/-- TAGGO: ENTAG is set. -/
def enableTagging (s : State) : State := { s with bdm := { s.bdm with status := putBit s.bdm.status 5 true } }

/-- WRITE_NEXT. -/
def writeNext (s : State) (data : Word) : State :=
  let s := s.setX (s.x + 2)
  write16InMap s s.x data

/-- READ_NEXT. -/
def readNext (s : State) : State :=
  let s := s.setX (s.x + 2)
  setShift s (read16InMap s .host s.x)

/-- A firmware command; `data` is what the host sends. -/
def firmwareCommand (s : State) (op : Byte) (data : Word) : Except Refusal State :=
  if op = 0x08 then .ok (leaveBdm s)
  else if op = 0x10 then .ok (leaveBdm (startTrace s))
  else if op = 0x18 then .ok (leaveBdm (enableTagging s))
  else if op = 0x42 then .ok (writeNext (setShift s data) data)
  else if op = 0x43 then .ok { setShift s data with tmp2 := data }
  else if op = 0x44 then .ok ((setShift s data).setD data)
  else if op = 0x45 then .ok ((setShift s data).setX data)
  else if op = 0x46 then .ok ((setShift s data).setY data)
  else if op = 0x47 then .ok ((setShift s data).setSp data)
  else if op = 0x62 then .ok (readNext s)
  else if op = 0x63 then .ok (setShift s s.tmp2)
  else if op = 0x64 then .ok (setShift s s.d)
  else if op = 0x65 then .ok (setShift s s.x)
  else if op = 0x66 then .ok (setShift s s.y)
  else if op = 0x67 then .ok (setShift s s.sp)
  else .error .unknownBdmCommand

/-- The opcodes of Table 8-2. -/
def isFirmwareCommand (op : Byte) : Bool :=
  op == 0x08 || op == 0x10 || op == 0x18 || (0x42 ≤ op && op ≤ 0x47) || (0x62 ≤ op && op ≤ 0x67)

/-! ## All commands -/

/-- What a command does, SDV being cleared (R705, R706). Whether the commands that read and write memory need ENBDM = 1
is left open: 00_scope.md R19 (b) speaks of "when BDM is enabled", R705 has that condition for BACKGROUND alone, and its
STATUS and ENABLE_FIRMWARE work without. The model makes no such condition for any of them (DESIGN CHOICE, log 27). -/
def runCommand (s : State) (op : Byte) (addr data : Word) : Except Refusal State :=
  if op = 0x90 then .ok (requestBdm { s with bdm := { s.bdm with instr := op } })
  else if op = 0xE4 then let s := bdmLatch s op addr; .ok (byteOut s addr (read8InMap s .host addr))
  else if op = 0xE0 then let s := bdmLatch s op addr; .ok (byteOut s addr (read8 s .host addr))
  else if op = 0xEC then let s := bdmLatch s op addr; ifAligned addr (setShift s (read16InMap s .host addr))
  else if op = 0xE8 then let s := bdmLatch s op addr; ifAligned addr (setShift s (read16 s .host addr))
  else if op = 0xC4 then .ok (write8InMap (setShift (bdmLatch s op addr) data) addr (byteIn addr data))
  else if op = 0xC0 then .ok (write8 (setShift (bdmLatch s op addr) data) addr (byteIn addr data))
  else if op = 0xCC then ifAligned addr (write16InMap (setShift (bdmLatch s op addr) data) addr data)
  else if op = 0xC8 then ifAligned addr (write16 (setShift (bdmLatch s op addr) data) addr data)
  else if isFirmwareCommand op then
    if s.run = .bdmActive then firmwareCommand { s with bdm := { s.bdm with instr := op } } op data
    else .error .bdmNotActive
  else .error .unknownBdmCommand

/-- A BDM command (R705, R706). In stop mode background debug does not operate (R700), so the command has no effect. -/
def bdmCommand (s : State) (op : Byte) (addr data : Word) : Except Refusal State :=
  if s.run = .stopped then .ok s else runCommand (beginCommand s) op addr data

/-! ## Commands between two accesses of the CPU (R705) -/

/-- A command after `n` of the CPU's stores between `s` and `t`, of which `t.stores` holds all: memory holds the first
`n`, what the command does there, and the other stores, each where the map puts it then. The CPU's stores are noted
against the window of the PC of `s`, PCnext, unless the flow has changed after them, which empties the note
(20_memory.md R84). The bytes that the command writes are noted against the window of the PC of `t` (log 38). -/
def commandAmong (s t : State) (flowChanged : Bool) (c : Command) (n : Nat) : Except Refusal State :=
  let es := t.stores.reverse
  let u := applyStores s (es.take n)
  (bdmCommand { u with pc := t.pc, stale := [] } c.op c.addr c.data).map fun v =>
    let w := applyStores { v with pc := s.pc, stale := u.stale } (es.drop n)
    { t with
      mem := w.mem
      ppage := w.ppage
      dpage := w.dpage
      epage := w.epage
      stale := if flowChanged then v.stale else v.stale ++ w.stale
      bdm := if es.isEmpty then t.bdm else v.bdm }

/-- A change of the next state. -/
def mapNext (f : State → State) : Res → Res
  | .next t => .next (f t)
  | .fault r => .fault r
  | .refused r => .refused r

/-- Every read sees memory as it is again. -/
def endEarly (s : State) : State := { s with earlier := none }

/-- A note in `stale` by which an action is seen to change the flow: only a change of flow empties `stale`. -/
def flowMark : List Slot := [.ppage]

/-- A command inside `act`, which starts from `s` and whose reads all come before its stores: it is done in memory as
the reads have it from `reads` on, the reads below see memory as it was, and it falls among the stores. -/
def commandWithin (act : State → Res) (s : State) (c : Command) (reads n : Nat) : Res :=
  match bdmCommand s c.op c.addr c.data with
  | .error r => .refused r
  | .ok q =>
      let early := some ⟨reads, s.mem, s.ppage, s.dpage, s.epage⟩
      if reads < allReads then mapNext endEarly (act { q with earlier := early })
      else
        match act { q with earlier := early, stale := flowMark } with
        | .fault r => .fault r
        | .refused r => .refused r
        | .next t =>
            match commandAmong s (endEarly t) t.stale.isEmpty c n with
            | .ok u => .next u
            | .error r => .refused r

end Sys2Proof.Machine
end

