-- ==== Sys2Proof/Machine/Interrupts.lean ====
section
/-! DEFINITION. Outside events at a boundary (70_reset_and_hazards.md R733), reset (60_exceptions.md R690 to R695),
which interrupt is recognised (R665 to R668) and taking it, and the ends of the waiting and stopped states
(49_ccr_stop_misc.md R627 to R631). -/

namespace Sys2Proof.Machine

/-! ## Reset -/

/-- The vector of a reset (R691). -/
def resetVector : ResetSource → Word
  | .powerOn | .external => 0xFFFE
  | .clockMonitor => 0xFFFC
  | .cop => 0xFFFA

/-- Priority among resets, 0 highest (R668). -/
def resetPriority : ResetSource → Nat
  | .powerOn | .external => 0
  | .clockMonitor => 1
  | .cop => 2

/-- STATUS after a reset (R701): ENBDM is 1 in special single-chip and peripheral mode, BDMACT and ENTAG are 0, SDV and
TRACE have no stated value, bits 2 to 0 are 0 (log 26). -/
def resetStatus (s : State) : Byte :=
  putBit (Config.freeByte s.free .resetBdmStatus 0 &&& 0x18) 7 (s.cfg.mode != .normal)

/-- BDM after a reset: the registers but STATUS have no stated value. A BACKGROUND or forced breakpoint that is still
pending when the reset is taken is dropped, of which the spec says nothing (DESIGN CHOICE, log 20). The bit TRACE, which
has no stated value either (10_state.md R45, R701), is free, but a TRACE1 in progress always ends, as the reset takes
the place of its instruction (DESIGN CHOICE, logs 20 and 35). -/
def resetBdm (s : State) : Bdm where
  instr := Config.freeByte s.free .resetBdmInstr 0
  status := resetStatus s
  shift := Config.freeWord s.free .resetBdmShift
  addr := Config.freeWord s.free .resetBdmAddr
  ccr := Config.freeByte s.free .resetBdmCcr 0
  request := false
  tracing := false

/-- The page registers after a reset are device-specific (10_state.md R45); a PPAGE bit that does not exist is 0
(R37). -/
def resetPpage (s : State) : Byte := pageBits s.cfg.ppageBits (Config.freeByte s.free .resetPpage 0)

/-- RESET (R691, 10_state.md R45): the vector is read, S, X and I are set, the PC goes to the handler; every register
without a reset value is free (U18), EWDIR among them, and the windows are off. Every byte of memory is kept, also after
a power-on reset, where the source gives RAM no value (R693; DESIGN CHOICE, unsafe, log 20). In special single-chip
mode BDM becomes active at once, and TMP2 is the word at the vector: whether the firmware's check for a BGND opcode at
that address, which R635 (b) and R700 tell of other activations, is made here too is left open, and the model makes none
(DESIGN CHOICE, log 37). -/
def takeReset (s : State) (src : ResetSource) : State :=
  let t := { s with
    a := Config.freeByte s.free .resetD 0
    b := Config.freeByte s.free .resetD 1
    x := Config.freeWord s.free .resetX
    y := Config.freeWord s.free .resetY
    sp := Config.freeWord s.free .resetSp
    ccr := Config.freeByte s.free .resetFlags 0 ||| 0xD0
    tmp1 := Config.freeWord s.free .resetTmp1
    tmp2 := Config.freeWord s.free .resetTmp2
    tmp3 := Config.freeWord s.free .resetTmp3
    ppage := resetPpage s
    dpage := Config.freeByte s.free .resetPages 0
    epage := Config.freeByte s.free .resetPages 1
    windows := ⟨false, false, false, (Config.freeByte s.free .resetPages 2).getLsbD 0⟩
    iDelay := false
    run := .running
    progress := .none
    outputs := []
    consumed := []
    suspended := []
    bdm := resetBdm s }
  let t := jump t (read16 s .vector (resetVector src))
  if s.cfg.mode = .specialSingleChip then enterBdm t t.pc else t

/-! ## Arrival of events -/

/-- What comes inside the instruction or exception entry of a step. -/
inductive Within where
  | command (cut : Cut) (c : Command)
  | reset (stores : Nat) (src : ResetSource)
deriving DecidableEq, Repr

/-- The state with the events of this step in it, the reset that is asked for, the tags on the next opcode, the latest
first, and what comes inside the step, the first of several (DESIGN CHOICE, log 38). -/
structure Arrived where
  state  : State
  reset  : Option ResetSource
  tags   : List TagKind
  within : Option Within
deriving DecidableEq, Repr

/-- The reset of higher priority (R668). What becomes of the other, of two in one step, the spec does not say: it is
dropped for good, as no reset stays pending (DESIGN CHOICE, log 20). -/
def higherReset (src : ResetSource) : Option ResetSource → ResetSource
  | some r => if resetPriority src < resetPriority r then src else r
  | none => src

/-- A request asserted or negated; a vector stands in the list once. -/
def setRequest (v : Word) (asserted : Bool) (rs : List Word) : List Word :=
  if asserted then v :: rs.filter (· != v) else rs.filter (· != v)

/-- One event. A change of the windows may put other bytes into the prefetch window, as a page register does (D5). In
stop mode background debug does not operate (60_exceptions.md R700, 49_ccr_stop_misc.md R626). -/
def arriveEvent (x : Arrived) : Event → Except Refusal Arrived
  | .xirq v => .ok { x with state := { x.state with pins := { x.state.pins with xirq := v } } }
  | .request v on =>
      .ok { x with state := { x.state with pins := { x.state.pins with requests := setRequest v on x.state.pins.requests } } }
  | .reset src => .ok { x with reset := some (higherReset src x.reset) }
  | .windows w => .ok { x with state := noteRemap x.state { x.state with windows := w } }
  | .tag k => .ok { x with tags := k :: x.tags }
  | .forceBdm => .ok { x with state := if x.state.run = .stopped then x.state else requestBdm x.state }
  | .command op addr data => (bdmCommand x.state op addr data).map fun t => { x with state := nextDraw t }
  | .commandWithin cut c => .ok { x with within := x.within.or (some (.command cut c)) }
  | .resetWithin n src => .ok { x with within := x.within.or (some (.reset n src)) }
  | .hostTimeout =>
      .ok { x with state := if x.state.run = .stopped then x.state
                            else { x.state with bdm := { x.state.bdm with instr := 0 } } }
  | .interruptAfter n => .ok { x with state := { x.state with budget := some n } }

/-- The events of one step, in order. -/
def arriveEvents : List Event → Arrived → Except Refusal Arrived
  | [], x => .ok x
  | e :: es, x =>
      match arriveEvent x e with
      | .ok y => arriveEvents es y
      | .error r => .error r

/-- The events of this step leave the schedule and take effect. -/
def arrivals (s : State) : Except Refusal Arrived :=
  arriveEvents (s.schedule.headD []) ⟨{ s with schedule := s.schedule.tail }, none, [], none⟩

/-! ## Recognition (R665 to R668) -/

/-- The vectors of the maskable sources: IRQ's $FFF2 and those of the device's sources (00_scope.md R5), which are even
and not below the base of the table (R660). -/
def isMaskableVector (c : Config) (v : Word) : Bool :=
  (v == 0xFFF2 || c.sources.contains v) && !v.getLsbD 0 && c.vectorBase ≤ v && v ≤ 0xFFF2

/-- Priority of a maskable source, higher first (R668): the promoted one, IRQ, the real-time interrupt, then by
address. -/
def maskablePriority (c : Config) (v : Word) : Nat :=
  if c.promoted = some v then 0x10002
  else if v = 0xFFF2 then 0x10001
  else if c.rtiVector = some v then 0x10000
  else v.toNat

/-- The asserted maskable request of highest priority. -/
def highestRequest (c : Config) : List Word → Option Word
  | [] => none
  | v :: vs =>
      if isMaskableVector c v then
        match highestRequest c vs with
        | some w => if maskablePriority c v < maskablePriority c w then some w else some v
        | none => some v
      else highestRequest c vs

/-- The vector of the interrupt recognised at this boundary, and whether it is XIRQ (R668, 70_reset_and_hazards.md
R740). -/
def recognised (s : State) : Option (Word × Bool) :=
  if s.pins.xirq && !s.flagX then some (0xFFF4, true)
  else if !s.flagI && !s.iDelay then (highestRequest s.cfg s.pins.requests).map (·, false)
  else none

/-- What an interrupted instruction does before the interrupt is taken: WAV stacks its three sums
(45_fuzzy_minmax_mac_tbl.md R417), REV and REVW leave their record (D14). -/
def leaveInstruction (s : State) : State :=
  finished (if s.progress = .wav then push16 (push16 (push16 s s.tmp3) s.tmp2) s.tmp1 else suspendRules s)

/-- TAKING AN INTERRUPT, the instruction in progress being left: the return address is the PC, which is the
instruction's own inside REV and REVW and that of the $3C byte inside WAV (R671). -/
def takeInterrupt (s : State) (vector : Word) (isXirq : Bool) : State := takeException s vector s.pc isXirq

/-! ## Waking (49_ccr_stop_misc.md R627 to R631) -/

/-- A boundary of the waiting state: an unmasked interrupt ends it, with no second frame. -/
def wakeWaiting (s : State) : State :=
  match recognised s with
  | some (v, isXirq) => enterHandler s v isXirq
  | none => s

/-- Whether a source can end a STOP: IRQ, and what the device adds (R626, U23). -/
def endsStop (c : Config) (v : Word) : Bool := v == 0xFFF2 || c.stopWake.contains v

/-- A boundary of the stopped state: XIRQ ends it whatever X is; with X = 1 there is no handler and the machine goes
on after STOP, where the PC stands, with SP as before STOP (R628, D16). Another source that may end it does so if I =
0 (R627, D17). With a masked XIRQ and an unmasked source at once the spec does not say which of R627 and R628 ends the
stop: the machine goes on first and takes the other interrupt, with a frame of its own, at the next boundary (DESIGN
CHOICE, log 19). -/
def wakeStopped (s : State) : State :=
  if s.pins.xirq then
    if s.flagX then { drop s 9 with run := .running } else enterHandler s 0xFFF4 true
  else if s.flagI then s
  else
    match highestRequest s.cfg (s.pins.requests.filter (endsStop s.cfg)) with
    | some v => enterHandler s v false
    | none => s

end Sys2Proof.Machine
end

