-- ==== Sys2Proof/Machine/Fetch.lean ====
section
/-! DEFINITION. Fetching an instruction's bytes (20_memory.md R63, R84), and what one step does: the events that
arrive, a reset, what the boundary demands (60_exceptions.md R668), and otherwise one instruction (00_scope.md R19); and
a BDM command or a reset inside it.
-/

namespace Sys2Proof.Machine

/-! ## Fetch -/

/-- The addresses of the six bytes, the longest instruction (30_encoding.md R101), from the PC on. -/
def fetchAddresses (s : State) : List Word := [s.pc, s.pc + 1, s.pc + 2, s.pc + 3, s.pc + 4, s.pc + 5]

/-- The six bytes at the PC. -/
def fetchBytes (s : State) : List Byte := (fetchAddresses s).map (read8 s .fetch)

/-- The instruction at the PC and its length. -/
def fetchInstr (s : State) : Except DecodeError (Instr × Nat) :=
  match decode (fetchBytes s) with
  | .ok (i, rest) => .ok (i, 6 - rest.length)
  | .error e => .error e

/-- Whether one of the `n` instruction bytes was stored to while it may have been in the queue (R84, D5, U21). -/
def fetchStale (s : State) (n : Nat) : Bool :=
  ((fetchAddresses s).take n).any fun a => s.stale.contains (slotAt s a)

/-! ## The end of an instruction -/

/-- The only instruction that clears I without the delay (70_reset_and_hazards.md R740, D21). -/
def isRti : Instr → Bool
  | .rti => true
  | _ => false

/-- The I-clear delay after an instruction; an instruction that is not finished leaves it. `iWas` is I before it. -/
def noteIDelay (iWas rti : Bool) (s : State) : State :=
  if s.progress = .none then { s with iDelay := iWas && !s.flagI && !rti } else s

/-- The end of a TRACE1 (60_exceptions.md R706): once its instruction is finished TRACE is cleared and BDM entered
again. -/
def endTrace (s : State) : State :=
  if s.bdm.tracing && s.progress = .none && (s.run == .running || s.run == .bdmActive) then
    let t := { s with bdm := { s.bdm with tracing := false, status := putBit s.bdm.status 3 false } }
    if t.run = .running then enterBdm t (bdmResume t t.pc) else t
  else s

/-- The end of an instruction. -/
def retire (iWas rti : Bool) (s : State) : State := endTrace (noteIDelay iWas rti s)

/-! ## The boundary: what the step does there -/

/-- What a step does at a boundary: enter BDM, run a tagged opcode, take an interrupt, run an instruction of `n`
bytes, go on with the interruptible instruction in progress, look whether the waiting or the stopped state ends, or
nothing. -/
inductive Action where
  | enterBdm
  | tagged (k : TagKind)
  | interrupt (vector : Word) (isXirq : Bool)
  | instr (i : Instr) (n : Nat)
  | resume
  | wakeWaiting
  | wakeStopped
  | idle
deriving DecidableEq, Repr

/-- The instruction at the PC, which is refused if the queue may hold other bytes of it. -/
def fetchAction (s : State) : Except Refusal Action :=
  match fetchInstr s with
  | .ok (i, n) => if fetchStale s n then .error .storeIntoPrefetchWindow else .ok (.instr i n)
  | .error .truncated => .error .truncatedInstruction

/-- The tag on the next opcode that counts: a pin tag does only if ENTAG = 1 (60_exceptions.md R719) and takes nothing
away otherwise; of several, among which the spec names no precedence (R716), the latest (DESIGN CHOICE, log 28). -/
def effectiveTag (s : State) (tags : List TagKind) : Option TagKind :=
  tags.find? fun k => k != .pin || s.bdm.status.getLsbD 5

/-- The interrupt that is taken here: none while a TRACE1 executes its one instruction (log 35). -/
def interruptHere (s : State) : Option (Word × Bool) := if s.bdm.tracing then none else recognised s

/-- No interrupt at this boundary: the instruction in progress goes on, or the next one runs. -/
def continueAction (s : State) (tags : List TagKind) : Except Refusal Action :=
  if s.progress = .none then
    match effectiveTag s tags with
    | some k => .ok (.tagged k)
    | none => fetchAction s
  else .ok .resume

/-- A boundary of the running state: BDM (log 28), then interrupts (60_exceptions.md R668), then the instruction. -/
def runningAction (s : State) (tags : List TagKind) : Except Refusal Action :=
  if ruleListOverlap s then .error .ruleListOverlapsOutputs
  else if s.bdm.request && s.progress = .none then .ok .enterBdm
  else
    match interruptHere s with
    | some (v, isXirq) => .ok (.interrupt v isXirq)
    | none => continueAction s tags

/-- A boundary in each run state (10_state.md R42). -/
def boundaryAction (s : State) (tags : List TagKind) : Except Refusal Action :=
  match s.run with
  | .running => runningAction s tags
  | .waiting => .ok .wakeWaiting
  | .stopped => .ok .wakeStopped
  | .bdmActive => .ok .idle

/-! ## Doing it -/

/-- How far PCnext of the interruptible instruction in progress is above the PC at its interrupt point (R414, R417). -/
def resumeLength : Progress → Word
  | .rev | .revw => 2
  | .wav => 1
  | .none => 0

/-- Goes on with the interruptible instruction in progress; the PC holds PCnext. -/
def resume (s : State) : State :=
  match s.progress with
  | .rev => runRev s
  | .revw => runRevw s
  | .wav => runWav s
  | .none => s

/-- BDM entered at this boundary by something other than a BGND opcode. -/
def enterBdmHere (s : State) : State := enterBdm s (bdmResume s s.pc)

/-- The next opcode is tagged (60_exceptions.md R716 to R719): an SWI in its place, which stacks its address + 1, or
BDM. -/
def runTagged (s : State) : TagKind → State
  | .swi => takeException s 0xFFF6 (s.pc + 1) false
  | .bdm | .pin => enterBdmHere s

/-- Before the action: the PC of an instruction becomes PCnext (30_encoding.md R107), and an interrupted instruction is
left. -/
def prepare (s : State) : Action → State
  | .instr _ n => { s with pc := s.pc + BitVec.ofNat 16 n }
  | .resume => { s with pc := s.pc + resumeLength s.progress }
  | .interrupt _ _ => leaveInstruction s
  | .enterBdm | .tagged _ | .wakeWaiting | .wakeStopped | .idle => s

/-- The action itself: all its reads come before its stores, but for a REV or REVW of several passes. -/
def act (s : State) : Action → Res
  | .enterBdm => .next (enterBdmHere s)
  | .tagged k => .next (runTagged s k)
  | .interrupt v isXirq => .next (takeInterrupt s v isXirq)
  | .instr i _ => exec i s
  | .resume => .next (resume s)
  | .wakeWaiting => .next (wakeWaiting s)
  | .wakeStopped => .next (wakeStopped s)
  | .idle => .next s

/-- After the action, `s` being the state at the boundary. -/
def finish (s : State) (a : Action) (t : State) : State :=
  match a with
  | .instr i _ => retire s.flagI (isRti i) t
  | .tagged .swi | .resume => retire s.flagI false t
  | .enterBdm | .tagged .bdm | .tagged .pin | .wakeWaiting | .wakeStopped => endTrace t
  | .interrupt _ _ | .idle => t

/-- The boundary, with nothing inside the action. -/
def boundary (s : State) (tags : List TagKind) : Res :=
  match boundaryAction s tags with
  | .error r => .refused r
  | .ok a => mapNext (finish s a) (act (prepare s a) a)

/-! ## Inside an action -/

/-- A BDM command inside an action (60_exceptions.md R705): among the stores that leave an interrupted WAV, or inside
the action proper, where a store that is made says that every read is. An interruptible instruction makes one pass,
as its next interrupt point is a boundary (log 38). -/
def actWithCommand (s : State) (a : Action) (cut : Cut) (c : Command) : Res :=
  let s := { s with stores := [], budget := some 1 }
  let p := prepare s a
  let before := p.stores.length
  if cut.stores < before then
    match commandAmong s p false c cut.stores with
    | .ok q => act q a
    | .error r => .refused r
  else
    let n := cut.stores - before
    commandWithin (fun q => act q a) { p with stores := [] } c (if 0 < n then allReads else min cut.reads allReads) n

/-- A BDM command inside what the step does at a boundary. -/
def boundaryWithCommand (s : State) (tags : List TagKind) (cut : Cut) (c : Command) : Res :=
  match boundaryAction s tags with
  | .error r => .refused r
  | .ok a => mapNext (finish s a) (actWithCommand s a cut c)

/-- The stores that what the step does at a boundary makes, in order. -/
def storesOf (s : State) (tags : List TagKind) : List Store :=
  match boundaryAction { s with stores := [] } tags with
  | .error _ => []
  | .ok a =>
      match act (prepare { s with stores := [] } a) a with
      | .next t => t.stores.reverse
      | .fault _ => []
      | .refused _ => []

/-- A reset inside what the step does at a boundary: the first `n` of its stores are in memory (60_exceptions.md R690,
D18, U31); every register and page register is lost to the reset anyway. -/
def resetWithin (s : State) (tags : List TagKind) (n : Nat) (src : ResetSource) : State :=
  takeReset { s with mem := (applyStores s ((storesOf s tags).take n)).mem } src

/-! ## One step -/

/-- The end of a step: the budget of passes is used up, no store is remembered, and the next step draws new free values.
-/
def closeStep (s : State) : State := { s with budget := none, stores := [], earlier := none, free := s.free + 1 }

/-- What the step does at its boundary, with what comes inside it. -/
def stepAt (s : State) (tags : List TagKind) : Option Within → Res
  | none => boundary s tags
  | some (.command cut c) => boundaryWithCommand s tags cut c
  | some (.reset n src) => .next (resetWithin s tags n src)

/-- One step: events arrive, a reset is taken first, then the boundary. -/
def oneStep (s : State) : Res :=
  match arrivals s with
  | .error r => .refused r
  | .ok x =>
      match x.reset with
      | some src => .next (closeStep (takeReset x.state src))
      | none => mapNext closeStep (stepAt x.state x.tags x.within)

/-! ## Placing an instruction -/

/-- Puts a byte into the storage an address reaches, writable or not: a load from outside the machine. -/
def placeByte (s : State) (a : Word) (v : Byte) : State :=
  match keyAt s a with
  | some k => { s with mem := memSet s.mem k v }
  | none => s

/-- Puts bytes into the storage from an address on. -/
def placeBytes (s : State) (a : Word) : List Byte → State
  | [] => s
  | v :: vs => placeBytes (placeByte s a v) (a + 1) vs

/-- A state that fetches: running, nothing in progress, nothing asked for, no event in its next step. -/
def readyToFetch (s : State) : State :=
  { s with
    run := .running
    progress := .none
    stale := []
    pins := ⟨false, []⟩
    bdm := { s.bdm with request := false, tracing := false }
    schedule := []
    budget := none
    stores := []
    earlier := none }

end Sys2Proof.Machine
end

