-- ==== Sys2Proof/Machine/Step.lean ====
section
/-! DEFINITION. The step, and placing an instruction where the next step fetches it. -/

namespace Sys2Proof.Machine

/-- One step of the machine (00_scope.md R19, 70_reset_and_hazards.md R733). -/
def step (s : State) : Host.Outcome State Fault Refusal := oneStep s

/-- `s` with the instruction of a table word at the PC, ready to fetch it (log 4). -/
def State.withFetchWord (s : State) (nbits w : Nat) : State :=
  placeBytes (readyToFetch s) s.pc (tableBytes nbits w)

end Sys2Proof.Machine
end

