-- ==== Sys2Proof/Safety.lean ====
section
/-! DEFINITION. The terms that the statements are made in: the invariant of the machine, completion, the flags of a
state bit by bit, sums and differences in integers, and which bytes of memory a form may change. -/

namespace Sys2Proof.Machine

/-! ## The invariant -/

/-- Bit 6 of STATUS, BDMACT (60_exceptions.md R701). -/
def bdmActiveBit (s : State) : Bool := s.bdm.status.getLsbD 6

/-- Bit 5 of STATUS, ENTAG (R701). -/
def tagEnableBit (s : State) : Bool := s.bdm.status.getLsbD 5

/-- What every step keeps: memory is in canonical form (the model's own, log 1); PPAGE has no bit that does not exist
(10_state.md R37, D6, log 9); BDMACT says whether BDM is active, and ENTAG, at bit 5, is 0 there (60_exceptions.md
R701; the bit is log 26's); bits 2 to 0 of STATUS are 0 (log 26); an interruptible instruction is in progress only
while the machine runs (45_fuzzy_minmax_mac_tbl.md R414); between steps no store is remembered and no read is early
(the model's own, log 38). -/
def Inv (s : State) : Prop :=
  Memory.wf s.mem = true ∧
  s.ppage.toNat < 2 ^ s.cfg.ppageBits ∧
  (bdmActiveBit s = true ↔ s.run = .bdmActive) ∧
  (tagEnableBit s = true → s.run ≠ .bdmActive) ∧
  s.bdm.status &&& 7 = 0 ∧
  (s.progress ≠ .none → s.run = .running) ∧
  s.stores = [] ∧ s.earlier = none

/-! ## Outcomes -/

/-- An answer is a next state with a property. -/
def Completes (r : Res) (P : State → Prop) : Prop := ∃ t, r = .next t ∧ P t

/-! ## Flags -/

/-- All eight bits of the CCR. -/
def CcrIs (t : State) (S X H I N Z V C : Bool) : Prop :=
  t.flagS = S ∧ t.flagX = X ∧ t.flagH = H ∧ t.flagI = I ∧ t.flagN = N ∧ t.flagZ = Z ∧ t.flagV = V ∧ t.flagC = C

/-- N, Z and V are as given, the other five bits those of `s`. -/
def FlagsNZV (s t : State) (n z v : Bool) : Prop := CcrIs t s.flagS s.flagX s.flagH s.flagI n z v s.flagC

/-- N, Z, V and C are as given, the other four bits those of `s`. -/
def FlagsNZVC (s t : State) (n z v c : Bool) : Prop := CcrIs t s.flagS s.flagX s.flagH s.flagI n z v c

/-- H, N, Z, V and C are as given, S, X and I those of `s`. -/
def FlagsHNZVC (s t : State) (h n z v c : Bool) : Prop := CcrIs t s.flagS s.flagX h s.flagI n z v c

/-! ## Integers -/

/-- The top bit, as a comparison. -/
def negative {w : Nat} (r : BitVec w) : Bool := decide (2 ^ (w - 1) ≤ r.toNat)

/-- Whether a number is 0. -/
def zero {w : Nat} (r : BitVec w) : Bool := decide (r.toNat = 0)

/-- Whether an integer has no signed representation in `w` bits. -/
def outOfRange (w : Nat) (i : Int) : Bool := decide (i < -(2 ^ (w - 1) : Int) ∨ (2 ^ (w - 1) : Int) ≤ i)

/-- The sum of two registers and a carry, without wrapping. -/
def wideSum {w : Nat} (a m : BitVec w) (cin : Bool) : Nat := a.toNat + m.toNat + cin.toNat

/-- The sum as signed numbers. -/
def signedSum {w : Nat} (a m : BitVec w) (cin : Bool) : Int := a.toInt + m.toInt + cin.toNat

/-- The difference of two registers and a borrow, without wrapping. -/
def wideDiff {w : Nat} (a m : BitVec w) (bin : Bool) : Int := (a.toNat : Int) - m.toNat - bin.toNat

/-- The difference as signed numbers. -/
def signedDiff {w : Nat} (a m : BitVec w) (bin : Bool) : Int := a.toInt - m.toInt - bin.toNat

/-- `r` is the sum modulo 2^w. -/
def IsSum {w : Nat} (a m : BitVec w) (cin : Bool) (r : BitVec w) : Prop := r.toNat = wideSum a m cin % 2 ^ w

/-- `r` is the difference modulo 2^w. -/
def IsDiff {w : Nat} (a m : BitVec w) (bin : Bool) (r : BitVec w) : Prop :=
  (r.toNat : Int) = wideDiff a m bin % (2 ^ w : Int)

/-- The flags of a subtraction with result `r`: C is the borrow, V the signed overflow. -/
def DiffFlags {w : Nat} (s t : State) (a m : BitVec w) (bin : Bool) (r : BitVec w) : Prop :=
  FlagsNZVC s t (negative r) (zero r) (outOfRange w (signedDiff a m bin)) (decide (wideDiff a m bin < 0))

/-- The flags of an addition with result `r`, H kept. -/
def SumFlags {w : Nat} (s t : State) (a m : BitVec w) (cin : Bool) (r : BitVec w) : Prop :=
  FlagsNZVC s t (negative r) (zero r) (outOfRange w (signedSum a m cin)) (decide (2 ^ w ≤ wideSum a m cin))

/-- The flags of an 8-bit addition with result `r`: H is the carry out of bit 3. -/
def SumFlagsH (s t : State) (a m : Byte) (cin : Bool) (r : Byte) : Prop :=
  FlagsHNZVC s t (decide (16 ≤ a.toNat % 16 + m.toNat % 16 + cin.toNat)) (negative r) (zero r)
    (outOfRange 8 (signedSum a m cin)) (decide (256 ≤ wideSum a m cin))

/-! ## Memory -/

/-- Every address reads as before. -/
def ReadsSame (s t : State) : Prop := ∀ x : Word, byteAt t x = byteAt s x

/-- Whether an address reaches a page register, a write to which changes the map. -/
def isPageRegister (s : State) (a : Word) : Prop := locate s a = .ppage ∨ locate s a = .dpage ∨ locate s a = .epage

/-- Nothing but the bytes that the addresses of the list reach in the map of `s` differs: every other storage byte
reads as before, a page register changes only if an address of the list reaches it, and where none does, every address
that reaches no byte of the list reads as before. -/
def StoresOnly (s t : State) (as : List Word) : Prop :=
  (∀ k, (∀ a ∈ as, locate s a ≠ .cell k true) → memGet t.mem k = memGet s.mem k) ∧
  ((∀ a ∈ as, locate s a ≠ .ppage) → t.ppage = s.ppage) ∧
  ((∀ a ∈ as, locate s a ≠ .dpage) → t.dpage = s.dpage) ∧
  ((∀ a ∈ as, locate s a ≠ .epage) → t.epage = s.epage) ∧
  ((∀ a ∈ as, ¬ isPageRegister s a) →
    ∀ x : Word, (∀ a ∈ as, slotAt s x ≠ slotAt s a) → byteAt t x = byteAt s x)

/-- An address that reaches writable storage in the map of `s` reads as `v` in `t`. -/
def Stored (s t : State) (a : Word) (v : Byte) : Prop := ∀ k, locate s a = .cell k true → byteAt t a = some v

/-- The two bytes of a word, high byte first; where both addresses name one byte of the map, the low byte is in it. -/
def StoredWord (s t : State) (a v : Word) : Prop :=
  (¬ isPageRegister s a → ¬ isPageRegister s (a + 1) →
    (slotAt s (a + 1) ≠ slotAt s a → Stored s t a (BitVec.ofNat 8 (v.toNat / 256))) ∧
    Stored s t (a + 1) (BitVec.ofNat 8 (v.toNat % 256)))

/-- Several bytes at their addresses, each that no other of the addresses names too. -/
def StoredBytes (s t : State) (as : List Word) (bs : List Byte) : Prop :=
  ∀ p ∈ as.zip bs, (∀ b ∈ as, b ≠ p.1 → slotAt s b ≠ slotAt s p.1) → Stored s t p.1 p.2

/-- The addresses of the nine bytes of an exception frame whose lowest byte is at `p` (60_exceptions.md R670). -/
def frameAddresses (p : Word) : List Word := [p, p + 1, p + 2, p + 3, p + 4, p + 5, p + 6, p + 7, p + 8]

/-- The bytes of the frame of `s` with return address `rtn`: CCR, B, A, X, Y, RTN from the lowest address up (R670). -/
def frameBytes (s : State) (rtn : Word) : List Byte :=
  [s.ccr, s.b, s.a, BitVec.ofNat 8 (s.x.toNat / 256), BitVec.ofNat 8 s.x.toNat, BitVec.ofNat 8 (s.y.toNat / 256),
    BitVec.ofNat 8 s.y.toNat, BitVec.ofNat 8 (rtn.toNat / 256), BitVec.ofNat 8 rtn.toNat]

/-- `t` is `s` with the frame pushed: SP is 9 lower, and where no byte of the frame reaches a page register each of them
holds its value and nothing else in memory changes. -/
def FramePushed (s t : State) (rtn : Word) : Prop :=
  t.sp = s.sp - 9 ∧
  ((∀ a ∈ frameAddresses (s.sp - 9), ¬ isPageRegister s a) →
    StoredBytes s t (frameAddresses (s.sp - 9)) (frameBytes s rtn) ∧
    StoresOnly s t (frameAddresses (s.sp - 9)))

/-- An exception is entered from `s`, with the vector read before the frame is written (R670, R672): `t` differs from
`s` in SP, PC, CCR, the frame's bytes, the queue and TMP1 to TMP3 alone, which are not preserved. -/
def Entered (s t : State) (vector rtn : Word) (isXirq : Bool) : Prop :=
  FramePushed s t rtn ∧
  t.pc = read16 s .vector vector ∧
  CcrIs t s.flagS (s.flagX || isXirq) s.flagH true s.flagN s.flagZ s.flagV s.flagC ∧
  t = { s with sp := t.sp, pc := t.pc, ccr := t.ccr, mem := t.mem, ppage := t.ppage, dpage := t.dpage, epage := t.epage,
               stale := [], stores := t.stores, tmp1 := t.tmp1, tmp2 := t.tmp2, tmp3 := t.tmp3 }

/-! ## Shapes of instructions: what completes, what changes, and that nothing else does -/

/-- An instruction on A and a read operand: `P` relates the states, A before, the operand and A after. -/
def OnA (i : Src8 → Instr) (P : State → State → Byte → Byte → Byte → Prop) : Prop :=
  ∀ (s : State) (o : Src8), Completes (exec (i o) s) fun t =>
    P s t s.a (src8 s o) t.a ∧ ReadsSame s t ∧ t = { src8Update s o with a := t.a, ccr := t.ccr }

/-- The same on B. -/
def OnB (i : Src8 → Instr) (P : State → State → Byte → Byte → Byte → Prop) : Prop :=
  ∀ (s : State) (o : Src8), Completes (exec (i o) s) fun t =>
    P s t s.b (src8 s o) t.b ∧ ReadsSame s t ∧ t = { src8Update s o with b := t.b, ccr := t.ccr }

/-- An instruction on D and a read operand. -/
def OnD (i : Src16 → Instr) (P : State → State → Word → Word → Word → Prop) : Prop :=
  ∀ (s : State) (o : Src16), Completes (exec (i o) s) fun t =>
    P s t s.d (src16 s o) t.d ∧ ReadsSame s t ∧ t = { src16Update s o with a := t.a, b := t.b, ccr := t.ccr }

/-- An instruction that sets flags alone from an 8-bit register and a read operand. -/
def Tests8 (i : Src8 → Instr) (reg : State → Byte) (P : State → State → Byte → Byte → Prop) : Prop :=
  ∀ (s : State) (o : Src8), Completes (exec (i o) s) fun t =>
    P s t (reg s) (src8 s o) ∧ ReadsSame s t ∧ t = { src8Update s o with ccr := t.ccr }

/-- The same for 16 bits; the register is taken as it is at the access, after a pre-modify and before a post-modify. -/
def Tests16 (i : Src16 → Instr) (reg : State → Word) (P : State → State → Word → Word → Prop) : Prop :=
  ∀ (s : State) (o : Src16), Completes (exec (i o) s) fun t =>
    P s t (reg (src16Access s o)) (src16 s o) ∧ ReadsSame s t ∧ t = { src16Update s o with ccr := t.ccr }

/-- An instruction that changes A and flags alone: `P` relates the states, A before and A after. -/
def ModifiesA (i : Instr) (P : State → State → Byte → Byte → Prop) : Prop :=
  ∀ s : State, Completes (exec i s) fun t => P s t s.a t.a ∧ ReadsSame s t ∧ t = { s with a := t.a, ccr := t.ccr }

/-- The same on B. -/
def ModifiesB (i : Instr) (P : State → State → Byte → Byte → Prop) : Prop :=
  ∀ s : State, Completes (exec i s) fun t => P s t s.b t.b ∧ ReadsSame s t ∧ t = { s with b := t.b, ccr := t.ccr }

/-- The same on D. -/
def ModifiesD (i : Instr) (P : State → State → Word → Word → Prop) : Prop :=
  ∀ s : State, Completes (exec i s) fun t =>
    P s t s.d t.d ∧ ReadsSame s t ∧ t = { s with a := t.a, b := t.b, ccr := t.ccr }

/-- The same on X. -/
def ModifiesX (i : Instr) (P : State → State → Word → Word → Prop) : Prop :=
  ∀ s : State, Completes (exec i s) fun t => P s t s.x t.x ∧ ReadsSame s t ∧ t = { s with x := t.x, ccr := t.ccr }

/-- The same on Y. -/
def ModifiesY (i : Instr) (P : State → State → Word → Word → Prop) : Prop :=
  ∀ s : State, Completes (exec i s) fun t => P s t s.y t.y ∧ ReadsSame s t ∧ t = { s with y := t.y, ccr := t.ccr }

/-- A read-modify-write of the byte at the operand's address: `P` relates the states, the byte read and the byte
written. -/
def ModifiesByte (i : Mem2 → Instr) (P : State → State → Byte → Byte → Prop) : Prop :=
  ∀ (s : State) (m : Mem2), Completes (exec (i m) s) fun t =>
    ∃ r : Byte, P s t (read8 s .operand (mem2Ea s m)) r ∧ Stored s t (mem2Ea s m) r ∧ StoresOnly s t [mem2Ea s m] ∧
      t = { mem2Update s m with mem := t.mem, ppage := t.ppage, dpage := t.dpage, epage := t.epage, stale := t.stale,
                                stores := t.stores, ccr := t.ccr }

/-- The forms on A, on B and on memory of one operation. -/
def Modifies8 (ia ib : Instr) (im : Mem2 → Instr) (P : State → State → Byte → Byte → Prop) : Prop :=
  ModifiesA ia P ∧ ModifiesB ib P ∧ ModifiesByte im P

/-- `t` is `u` but for memory and what a store can change. -/
def OnlyStores (u t : State) : Prop :=
  t = { u with mem := t.mem, ppage := t.ppage, dpage := t.dpage, epage := t.epage, stale := t.stale, stores := t.stores }

/-- The flags of a shift or rotate: V = N ⊕ C after it (44_shift_rotate.md R371). -/
def ShiftFlags {w : Nat} (s t : State) (r : BitVec w) (c : Bool) : Prop :=
  FlagsNZVC s t (negative r) (zero r) (negative r != c) c

/-- A store of a byte with its flags. -/
def StoresByte (i : Mem3 → Instr) (reg : State → Byte) : Prop :=
  ∀ (s : State) (m : Mem3), Completes (exec (i m) s) fun t =>
    Stored s t (mem3Ea s m) (reg s) ∧ StoresOnly s t [mem3Ea s m] ∧
    FlagsNZV s t (negative (reg s)) (zero (reg s)) false ∧ OnlyStores { mem3Update s m with ccr := t.ccr } t

/-- A store of a word with its flags; where `isFree` says that the stored value is undefined, some value is stored and
the flags are that value's (D8, U13). -/
def StoresWord (i : Mem3 → Instr) (reg : State → Word) (isFree : Mem3 → Bool) : Prop :=
  ∀ (s : State) (m : Mem3), Completes (exec (i m) s) fun t => ∃ v : Word,
    (isFree m = false → v = reg s) ∧ StoredWord s t (mem3Ea s m) v ∧ StoresOnly s t [mem3Ea s m, mem3Ea s m + 1] ∧
    FlagsNZV s t (negative v) (zero v) false ∧ OnlyStores { mem3Update s m with ccr := t.ccr } t

/-! ## Registers of TFR and EXG -/

/-- The value of a register as a signed number; code 3 has none. -/
def tregSigned (s : State) : TReg → Int
  | .a => s.a.toInt
  | .b => s.b.toInt
  | .ccr => s.ccr.toInt
  | .tmp => 0
  | .d => s.d.toInt
  | .x => s.x.toInt
  | .y => s.y.toInt
  | .sp => s.sp.toInt

/-- The value of a register as an unsigned number; code 3 has none. -/
def tregVal (s : State) : TReg → Nat
  | .a => s.a.toNat
  | .b => s.b.toNat
  | .ccr => s.ccr.toNat
  | .tmp => 0
  | .d => s.a.toNat * 256 + s.b.toNat
  | .x => s.x.toNat
  | .y => s.y.toNat
  | .sp => s.sp.toNat

/-- Whether two names share bits: each with itself, and A and B with D. -/
def tregOverlap : TReg → TReg → Bool
  | .a, .d | .d, .a | .b, .d | .d, .b => true
  | r, q => r == q

/-- A value `v` loaded into the CCR from data (10_state.md R35). -/
def LoadsCcr (s t : State) (v : Byte) : Prop :=
  CcrIs t (v.getLsbD 7) (v.getLsbD 6 && s.flagX) (v.getLsbD 5) (v.getLsbD 4) (v.getLsbD 3) (v.getLsbD 2) (v.getLsbD 1)
    (v.getLsbD 0)

/-- What a transfer of the number `w` into a register leaves: the low bits of `w` there, all else as before. -/
def Transferred (s t : State) (w : Int) : TReg → Prop
  | .a => t = { s with a := BitVec.ofInt 8 w }
  | .b => t = { s with b := BitVec.ofInt 8 w }
  | .ccr => LoadsCcr s t (BitVec.ofInt 8 w) ∧ t = { s with ccr := t.ccr }
  | .tmp => t = { s with tmp2 := t.tmp2 }
  | .d => (tregVal t .d : Int) = w % 65536 ∧ t = { s with a := t.a, b := t.b }
  | .x => t = { s with x := BitVec.ofInt 16 w }
  | .y => t = { s with y := BitVec.ofInt 16 w }
  | .sp => t = { s with sp := BitVec.ofInt 16 w }

/-! ## Lists of the fuzzy instructions -/

/-- `f 0 + … + f (n − 1)`. -/
def sumTo (f : Nat → Nat) : Nat → Nat
  | 0 => 0
  | n + 1 => sumTo f n + f n

/-- The operand S of iteration `k` of WAV. -/
def wavS (s : State) (k : Nat) : Nat := (read8 { s with free := s.free + k } .operand (s.x + BitVec.ofNat 16 k)).toNat

/-- The operand F of iteration `k` of WAV. -/
def wavF (s : State) (k : Nat) : Nat := (read8 { s with free := s.free + k } .second (s.y + BitVec.ofNat 16 k)).toNat

/-- The rule-list byte that pass `k` of REV reads, the list standing as in `s`. -/
def revByte (s : State) (k : Nat) : Byte := read8 { s with free := s.free + k } .operand (s.x + BitVec.ofNat 16 k)

/-- The rule-list word that pass `k` of REVW reads, the list standing as in `s`. -/
def revwWord (s : State) (k : Nat) : Word :=
  read16 { s with free := s.free + k } .operand (s.x + BitVec.ofNat 16 (2 * k))

/-- `t` is `s` with fuzzy outputs raised and no other byte of storage changed: each was written before an interrupt by
the execution that `s` resumes, or is at an address that one of the `n` passes names. -/
def OutputsRaised (s t : State) (n : Nat) (named : Nat → Word → Prop) : Prop :=
  (∀ k, .cell k ∉ t.outputs → memGet t.mem k = memGet s.mem k) ∧
  (.ppage ∉ t.outputs → t.ppage = s.ppage) ∧ (.dpage ∉ t.outputs → t.dpage = s.dpage) ∧
  (.epage ∉ t.outputs → t.epage = s.epage) ∧
  (∀ k, (memGet s.mem k).toNat ≤ (memGet t.mem k).toNat) ∧
  ((∀ j < n, ∀ a, named j a → ¬ isPageRegister s a) →
    t.ppage = s.ppage ∧ t.dpage = s.dpage ∧ t.epage = s.epage ∧
    ∀ p ∈ t.outputs, p ∈ (enterRules s).outputs ∨ ∃ j < n, ∃ a, named j a ∧ slotAt s a = p)

/-- No interrupted execution of REV or REVW at this address waits to be resumed in these registers (`s.pc` is PCnext).
-/
def StartsAfresh (s : State) : Prop :=
  ∀ r ∈ s.suspended, ¬ (r.pc = s.pc - 2 ∧ r.a = s.a ∧ r.x = s.x ∧ r.y = s.y ∧ r.v = s.flagV ∧ r.sp = s.sp)

/-- Every address reaches RAM, each a byte of its own, and no read of this step is early. -/
def AllRam (s : State) : Prop := (∀ z : Word, locate s z = .cell z.toNat true) ∧ s.earlier = none

/-- The byte of storage at an address, where every address reaches RAM. -/
def ramByte (s : State) (a : Word) : Byte := memGet s.mem a.toNat

/-- The bytes from `a` on. -/
def RamHolds (s : State) (a : Word) (bs : List Byte) : Prop :=
  ∀ k (h : k < bs.length), ramByte s (a + BitVec.ofNat 16 k) = bs[k]

/-- The bytes of words, high byte first. -/
def bytesOfWords : List Word → List Byte
  | [] => []
  | w :: ws => BitVec.ofNat 8 (w.toNat / 256) :: BitVec.ofNat 8 w.toNat :: bytesOfWords ws

/-! ## REV, REVW and WAV interrupted and resumed -/

/-- The instruction that stands at the return address of an interrupt inside REV, REVW or WAV
(45_fuzzy_minmax_mac_tbl.md R414, R416). -/
def reentry : Progress → Instr
  | .rev => .rev
  | .revw => .revw
  | .wav => .wavr
  | .none => .nop

/-- The bytes that an interrupt at the interrupt point `s` leaves on the stack, from the lowest address up: the frame,
and above it the three sums of WAV, TMP1 lowest (R414, R417). -/
def interruptedBytes (s : State) : List Byte :=
  frameBytes s s.pc ++ if s.progress = .wav then bytesOfWords [s.tmp1, s.tmp2, s.tmp3] else []

/-- `h` is where a handler of an interrupt at the interrupt point `s` returns: what the interrupt left on the stack is
there, X has not been cleared, and no budget of passes is given. Inside REV and REVW the newest record is the one that
the interrupt left (D14, log 15). All else may differ. -/
def HandlerReturns (s h : State) : Prop :=
  h.sp = s.sp - BitVec.ofNat 16 (interruptedBytes s).length ∧ RamHolds h h.sp (interruptedBytes s) ∧
  (s.flagX = true → h.flagX = true) ∧ h.budget = none ∧
  (s.progress ≠ .wav → h.suspended = ⟨s.pc, s.a, s.x, s.y, s.flagV, s.sp, s.outputs, s.consumed⟩ :: s.suspended)

/-- The addresses that the next pass of the instruction in progress may read or write (R412, R413, R415). -/
def passAddresses (s : State) : List Word :=
  match s.progress with
  | .rev => [s.x, s.y + (read8 s .operand s.x).setWidth 16]
  | .revw => [s.x, s.x + 1, s.y, read16 s .operand s.x]
  | .wav => [s.x, s.y]
  | .none => []

/-- The instruction in progress after `n` passes, or fewer where it is finished earlier. -/
def afterPasses (n : Nat) (s : State) : State :=
  match s.progress with
  | .rev => ruleLoop revPass n s
  | .revw => ruleLoop revwPass n s
  | .wav => wavLoop n s
  | .none => s

/-- The smallest of $FF and the bytes at some addresses. -/
def leastAt (s : State) : List Word → Nat
  | [] => 255
  | a :: as => min (ramByte s a).toNat (leastAt s as)

end Sys2Proof.Machine
end

