-- ==== Sys2Proof/Certificates/Slice0/Obligations.lean ====
section
/-! DEFINITION. The statements for the provers. The terms they are made in stand in Sys2Proof/Safety.lean. -/

open Sys2Proof Sys2Proof.Machine

/-! ## Encoding -/

/-- Decoding what the encoder writes for a well-formed instruction, with any bytes after it, gives the core
instruction and those bytes (30_encoding.md R102 to R107, R143); for every operand at every value. -/
def Obligations.DecodeOfEncodeIsTheCoreInstruction : Prop :=
  ∀ (i : Instr) (rest : List Byte), i.wf = true → decode (encode i ++ rest) = .ok (i.canon, rest)

/-- Six bytes always decode (R101, R103, R104), and what is decoded is well formed, is a core instruction, and took 1
to 6 bytes from the front. The second bytes $30 to $39 and $40 to $FF after the prebyte, 202 in all, are TRAP and take
two bytes; no other second byte is TRAP (R105, 60_exceptions.md R680). -/
def Obligations.DecodingIsTotalAndWellFormed : Prop :=
  ((∀ bs : List Byte, 6 ≤ bs.length → ∃ i rest, decode bs = .ok (i, rest)) ∧
  (∀ (bs : List Byte) (i : Instr) (rest : List Byte), decode bs = .ok (i, rest) →
    i.wf = true ∧ i.canon = i ∧ ∃ pre, bs = pre ++ rest ∧ 1 ≤ pre.length ∧ pre.length ≤ 6)) ∧
  ((∀ (tn : Byte) (rest : List Byte),
    (0x30 ≤ tn.toNat ∧ tn.toNat ≤ 0x39) ∨ 0x40 ≤ tn.toNat → decode (0x18 :: tn :: rest) = .ok (.trap tn, rest)) ∧
  (∀ (b tn : Byte) (bs rest : List Byte), decode (0x18 :: b :: bs) = .ok (.trap tn, rest) →
    b = tn ∧ rest = bs ∧ ((0x30 ≤ tn.toNat ∧ tn.toNat ≤ 0x39) ∨ 0x40 ≤ tn.toNat)) ∧
  ((List.range 256).filter fun n => decide ((0x30 ≤ n ∧ n ≤ 0x39) ∨ 0x40 ≤ n)).length = 202)

/-- A few words written out from the opcode maps and postbyte tables decode to the instructions they stand for. -/
def Obligations.SampleWordsDecodeAsTheOpcodeMapSays : Prop :=
  decode [0xA6, 0xE5] = .ok (.ldaa (.ix (.direct (.idx (.acc .x .b)))), []) ∧
  decode [0x6A, 0xAF] = .ok (.staa (.ix (.direct (.idx (.auto .sp false 15)))), []) ∧
  decode [0xB7, 0xC5] = .ok (.exg .d .x, []) ∧
  decode [0x18, 0x04, 0x12, 0x34, 0x56, 0x78] = .ok (.movw (.ext 0x1234) (.ext 0x5678), []) ∧
  decode [0x0E, 0xE2, 0x10, 0x00, 0x0F, 0xFE] = .ok (.brset (.ix (.off16 .x 0x1000)) 0x0F 0xFE, []) ∧
  decode [0x04, 0x31, 0xFC] = .ok (.dbne .b 0x1FC, []) ∧
  decode [0x18, 0x26, 0x12, 0x34] = .ok (.lbne 0x1234, []) ∧
  decode [0x4A, 0x80, 0x00, 0x05] = .ok (.call (.ext 0x8000 0x05), []) ∧
  decode [0x18, 0xFF] = .ok (.trap 0xFF, []) ∧
  decode [0x1A, 0xE3] = .ok (.undefined (.page1 0x1A 0xE3), [])

/-! ## Reset and the step -/

/-- The machine right after reset: S, X and I are 1, the PC is the word at $FFFE, the machine runs, ENBDM, BDMACT and
ENTAG are 0 (10_state.md R45). The normal mode it is reset in is a parameter (log 3), and so the value of ENBDM is the
model's choice, as is bit 5 as the place of ENTAG, which is general knowledge and not the source's (log 26, PRESUMED).
-/
def Obligations.ResetSetsTheMasksAndLoadsThePc : Prop :=
  State.reset.flagS = true ∧ State.reset.flagX = true ∧ State.reset.flagI = true ∧
  State.reset.pc = read16 State.reset .vector 0xFFFE ∧ State.reset.run = .running ∧
  State.reset.bdm.status.getLsbD 7 = false ∧ bdmActiveBit State.reset = false ∧ tagEnableBit State.reset = false

/-- The state after reset has the invariant. Of its clauses the canonical form of memory is the model's (log 1), that
PPAGE keeps no bit that does not exist is the spec's decision D6 (log 9), and ENTAG at bit 5 and the zero bits 2 to 0
of STATUS are general knowledge (log 26, PRESUMED), and that no store is remembered and no read is early between steps
is the model's (log 38): choices, no rules of the source. -/
def Obligations.ResetHasTheInvariant : Prop := Inv State.reset

/-- Every step from a state with the invariant leads to a state with it. Of its clauses the canonical form of memory
is the model's (log 1), that PPAGE keeps no bit that does not exist is the spec's decision D6 (log 9), and ENTAG at
bit 5 and the zero bits 2 to 0 of STATUS are general knowledge (log 26, PRESUMED), and that no store is remembered and
no read is early between steps is the model's (log 38): choices, no rules of the source. -/
def Obligations.EveryStepKeepsTheInvariant : Prop := ∀ s t : State, Inv s → step s = .next t → Inv t

/-- No step changes the parameters of the machine, and no step faults. -/
def Obligations.EveryStepKeepsTheParameters : Prop :=
  ∀ s : State, (∀ t, step s = .next t → t.cfg = s.cfg) ∧ (∀ r, step s ≠ .fault r)

/-- A reset that arrives is taken in whatever state the machine is (60_exceptions.md R690, R691, R668): S, X and I are
set, memory is as it was and nothing is stacked, or, with a reset inside the action of the step, holds the first
stores of that action (D18, log 38), the windows are off, nothing is in progress, BDM is off and ENBDM says whether
the mode allows it, the PC is the word at the vector of the source; in special single-chip mode BDM is active with
TMP2 that address. Of two resets in one step the one of higher priority gives the vector. The model's choices: that
the other is dropped (log 20), that a reset event is taken at the boundary and that all memory is kept (log 20, D18),
that the windows are off (log 32), that BDM is active at once in special single-chip mode (log 37), that ENTAG is bit
5 (log 26). -/
def Obligations.ResetIsTakenInEveryState : Prop :=
  (∀ (s : State) (src : ResetSource) (later : List (List Event)) (e : Event) (n : Nat), s.schedule = [e] :: later →
    e = .reset src ∨ e = .resetWithin n src → Completes (step s) fun t =>
      let target := read16 { s with mem := t.mem } .vector (match src with
        | .powerOn | .external => 0xFFFE
        | .clockMonitor => 0xFFFC
        | .cop => 0xFFFA)
      t.flagS = true ∧ t.flagX = true ∧ t.flagI = true ∧ (e = .reset src → t.mem = s.mem) ∧
      (e = .resetWithin n src →
        t.mem = (applyStores s ((storesOf { s with schedule := later } []).take n)).mem) ∧ t.pins = s.pins ∧ t.schedule = later ∧
      (t.windows.pwen || t.windows.dwen || t.windows.ewen) = false ∧ t.progress = .none ∧ t.iDelay = false ∧
      (s.cfg.mode ≠ .specialSingleChip → t.pc = target) ∧
      (s.cfg.mode = .normal → t.run = .running ∧ t.bdm.status.getLsbD 7 = false ∧ bdmActiveBit t = false) ∧
      (s.cfg.mode = .peripheral → t.run = .running ∧ t.bdm.status.getLsbD 7 = true ∧ bdmActiveBit t = false) ∧
      (s.cfg.mode = .specialSingleChip →
        t.run = .bdmActive ∧ t.bdm.status.getLsbD 7 = true ∧ bdmActiveBit t = true ∧ t.tmp2 = target) ∧
      tagEnableBit t = false) ∧
  (∀ (s : State) (r q : ResetSource) (later : List (List Event)), s.schedule = [.reset r, .reset q] :: later →
    Completes (step s) fun t =>
      let target := if s.cfg.mode = .specialSingleChip then t.tmp2 else t.pc
      (r = .powerOn ∨ r = .external ∨ q = .powerOn ∨ q = .external → target = read16 s .vector 0xFFFE) ∧
      (r = .clockMonitor ∧ q = .cop ∨ r = .cop ∧ q = .clockMonitor → target = read16 s .vector 0xFFFC))

/-- A step runs the decoded instruction: with no event, nothing asked for and no interrupt to take, where the bytes at
the PC decode to `i` of `n` bytes and none of them was stored to while it may have been in the queue, the step is
`exec i` with the PC at the next instruction; where one of them was so stored to, the step is refused (20_memory.md
R84), and so is the step of an unfinished REV or REVW whose rule list overlaps the outputs that it has written
(45_fuzzy_minmax_mac_tbl.md R412, D14). After it the I-clear delay is noted (70_reset_and_hazards.md R740), a TRACE1
that is under way ends, the pass budget is used up and the free-value counter advances. A refusal of `exec` is the
step's refusal. The bytes are the six at the PC (20_memory.md R63), and `n` is how many of them the decoder takes. The
model's choices: the exception of RTI from the delay is the spec's decision D21 (log 22); the hazard of a store into
the queue (log 23, D5), where an overlap is noticed (log 17), the pass budget (log 15), the end of a TRACE1 (log 35)
and the counter (log 5) are its own. -/
def Obligations.StepRunsTheDecodedInstruction : Prop :=
  (∀ (s : State) (i : Instr) (n : Nat), fetchInstr s = .ok (i, n) ↔
    ∃ rest, decode ((List.range 6).map fun k => read8 s .fetch (s.pc + BitVec.ofNat 16 k)) = .ok (i, rest) ∧
      n = 6 - rest.length) ∧
  (∀ (s : State) (n : Nat), n ≤ 6 → (fetchStale s n = true ↔
    ∃ k < n, slotAt s (s.pc + BitVec.ofNat 16 k) ∈ s.stale)) ∧
  (∀ (s : State) (i : Instr) (n : Nat), s.schedule.headD [] = [] → s.run = .running → s.bdm.request = false →
    s.progress = .none → interruptHere s = none → fetchInstr s = .ok (i, n) → fetchStale s n = true →
    step s = .refused .storeIntoPrefetchWindow) ∧
  (∀ s : State, (ruleListOverlap s = true ↔
      (s.progress = .rev ∨ s.progress = .revw) ∧ ∃ q ∈ s.outputs, q = slotAt s s.x ∨
        s.progress = .revw ∧ q = slotAt s (s.x + 1) ∨ q ∈ s.consumed) ∧
    (s.schedule.headD [] = [] → s.run = .running → ruleListOverlap s = true →
      step s = .refused .ruleListOverlapsOutputs)) ∧
  ∀ (s : State) (i : Instr) (n : Nat), s.schedule.headD [] = [] → s.run = .running → s.bdm.request = false →
    s.progress = .none → interruptHere s = none → fetchInstr s = .ok (i, n) → fetchStale s n = false →
    let s' := { s with schedule := s.schedule.tail, pc := s.pc + BitVec.ofNat 16 n }
    (∀ t, exec i s' = .next t →
      step s = .next { endTrace (noteIDelay s.flagI (isRti i) t) with
        budget := none, stores := [], earlier := none, free := (endTrace (noteIDelay s.flagI (isRti i) t)).free + 1 }) ∧
    (∀ r, exec i s' = .refused r → step s = .refused r) ∧
    (s.bdm.tracing = false → ∀ t, exec i s' = .next t → endTrace (noteIDelay s.flagI (isRti i) t) =
      { t with iDelay := if t.progress = .none then s.flagI && !t.flagI && !isRti i else t.iDelay })

/-! ## Whole-machine rules -/

/-- No instruction sets X: where X is 1 after an instruction it was 1 before (10_state.md R35, 70_reset_and_hazards.md
R747). -/
def Obligations.NoInstructionSetsTheXMask : Prop :=
  ∀ (i : Instr) (s t : State), exec i s = .next t → t.flagX = true → s.flagX = true

/-- X goes from 0 to 1 in a step only by a reset or with XIRQ asserted (60_exceptions.md R665). -/
def Obligations.OnlyResetOrXirqSetsTheXMask : Prop :=
  ∀ s t : State, step s = .next t → s.flagX = false → t.flagX = true →
    (∃ src, Event.reset src ∈ s.schedule.headD [] ∨ ∃ n, Event.resetWithin n src ∈ s.schedule.headD []) ∨ (∃ x, arrivals s = .ok x ∧ x.state.pins.xirq = true)

/-- The writers of the CCR from data load every bit of the value but bit 6, and bit 6 stays 0 if it was 0: TAP, TFR
and EXG with CCR as destination, PULC, RTI, ORCC (10_state.md R35). ANDCC only clears bits. -/
def Obligations.CcrWritersObeyTheXBitProtectionRule : Prop :=
  (∀ s : State, Completes (exec .tap s) fun t => LoadsCcr s t s.a) ∧
  (∀ (s : State) (r : TReg), Completes (exec (.tfr r .ccr) s) fun t => LoadsCcr s t (treg8 s (readTmp3 s) r)) ∧
  (∀ (s : State) (r : TReg), Completes (exec (.exg .ccr r) s) fun t => LoadsCcr s t (treg8 s (readTmp2 s) r)) ∧
  (∀ (s : State) (r : TReg), Completes (exec (.exg r .ccr) s) fun t => LoadsCcr s t (treg8 s (readTmp3 s) r)) ∧
  (∀ s : State, Completes (exec .pulc s) fun t => LoadsCcr s t (read8 s .stack s.sp)) ∧
  (∀ s : State, Completes (exec .rti s) fun t => LoadsCcr s t (read8 s .stack s.sp)) ∧
  (∀ (s : State) (m : Byte), Completes (exec (.orcc m) s) fun t => LoadsCcr s t (s.ccr ||| m)) ∧
  (∀ (s : State) (m : Byte), Completes (exec (.andcc m) s) fun t =>
    ∀ k, t.ccr.getLsbD k = true → s.ccr.getLsbD k = true ∧ m.getLsbD k = true)

/-- D is A : B; a write to D writes both, a write to A or B the half of D (10_state.md R22). -/
def Obligations.AccumulatorDIsAAndBJoined : Prop :=
  (∀ s : State, s.d.toNat = s.a.toNat * 256 + s.b.toNat) ∧
  (∀ (s : State) (v : Word), (s.setD v).a.toNat = v.toNat / 256 ∧ (s.setD v).b.toNat = v.toNat % 256 ∧ (s.setD v).d = v) ∧
  (∀ (s : State) (v : Byte), (s.setA v).d.toNat = v.toNat * 256 + s.d.toNat % 256 ∧
    (s.setB v).d.toNat = s.d.toNat / 256 * 256 + v.toNat)

/-! ## Interrupts and suspended states -/

/-- Which interrupt is recognised at a boundary (60_exceptions.md R665, R668, 70_reset_and_hazards.md R740): XIRQ if
it is asserted and X = 0, whatever I is; else, with I = 0 and no I-clear delay, the asserted maskable request of
highest priority. Among maskable requests the promoted one is first, then IRQ, then the real-time interrupt, then the
higher address. A maskable source is IRQ or a source of the device whose vector is even and stands in the table of the
variant below $FFF4 (00_scope.md R5, R6, 60_exceptions.md R660). -/
def Obligations.RecognitionFollowsMasksAndPriority : Prop :=
  (∀ (c : Config) (v : Word), isMaskableVector c v = true ↔
    (v = 0xFFF2 ∨ v ∈ c.sources) ∧ v.toNat % 2 = 0 ∧
    (if c.variant = .hcs12 then 0xFF00 else 0xFFC0) ≤ v.toNat ∧ v.toNat ≤ 0xFFF2) ∧
  (∀ s : State, recognised s = some (0xFFF4, true) ↔ s.pins.xirq = true ∧ s.flagX = false) ∧
  (∀ (s : State) (v : Word), recognised s = some (v, false) ↔
    (s.pins.xirq = false ∨ s.flagX = true) ∧ s.flagI = false ∧ s.iDelay = false ∧
    v ∈ s.pins.requests ∧ isMaskableVector s.cfg v = true ∧
    ∀ w ∈ s.pins.requests, isMaskableVector s.cfg w = true → maskablePriority s.cfg w ≤ maskablePriority s.cfg v) ∧
  (∀ (c : Config) (v w : Word), isMaskableVector c v = true → isMaskableVector c w = true → v ≠ w →
    (c.promoted = some v → maskablePriority c w < maskablePriority c v) ∧
    (c.promoted ≠ some v → c.promoted ≠ some w →
      (v = 0xFFF2 → maskablePriority c w < maskablePriority c v) ∧
      (c.rtiVector = some v → w ≠ 0xFFF2 → maskablePriority c w < maskablePriority c v) ∧
      (c.rtiVector ≠ some v → c.rtiVector ≠ some w → v ≠ 0xFFF2 → w < v →
        maskablePriority c w < maskablePriority c v)))

/-- Taking a recognised interrupt at a boundary of the running state, or inside REV or REVW (60_exceptions.md R670,
R671, 45_fuzzy_minmax_mac_tbl.md R414): the vector is read, the frame pushed with the PC as return address, I set, X
set for XIRQ, and the PC is the handler's; TMP1 to TMP3 are not preserved. Nothing is in progress afterwards; inside
REV or REVW the model keeps the record that its resumption needs (D14, log 17). Inside WAV the three sums are stacked
above the frame, TMP1 lowest, and the return address is that of the $3C byte, the PC (45_fuzzy_minmax_mac_tbl.md
R417). -/
def Obligations.InterruptEntryStacksTheFrame : Prop :=
  (∀ (s : State) (v : Word) (isXirq : Bool), s.schedule.headD [] = [] → s.run = .running → s.bdm.tracing = false →
    (s.progress = .none ∧ s.bdm.request = false ∨ s.progress = .rev ∨ s.progress = .revw) → ruleListOverlap s = false →
    recognised s = some (v, isXirq) →
    ∃ t, step s = .next { t with budget := none, stores := [], earlier := none, free := t.free + 1 } ∧
      Entered { s with schedule := s.schedule.tail, progress := .none, suspended := if s.progress = .none then s.suspended
                         else ⟨s.pc, s.a, s.x, s.y, s.flagV, s.sp, s.outputs, s.consumed⟩ :: s.suspended } t v s.pc isXirq) ∧
  (∀ (s : State) (v : Word) (isXirq : Bool), s.schedule.headD [] = [] → s.run = .running → s.bdm.tracing = false →
    s.progress = .wav → recognised s = some (v, isXirq) →
    (∀ k < 6, ¬ isPageRegister s (s.sp - 6 + BitVec.ofNat 16 k)) →
    ∃ u t, step s = .next { t with budget := none, stores := [], earlier := none, free := t.free + 1 } ∧
      StoredBytes s u [s.sp - 6, s.sp - 5, s.sp - 4, s.sp - 3, s.sp - 2, s.sp - 1]
        (bytesOfWords [s.tmp1, s.tmp2, s.tmp3]) ∧
      u = { s with schedule := s.schedule.tail, progress := .none, sp := s.sp - 6,
                   mem := u.mem, stale := u.stale, stores := u.stores } ∧
      StoresOnly s u [s.sp - 6, s.sp - 5, s.sp - 4, s.sp - 3, s.sp - 2, s.sp - 1] ∧
      Entered u t v s.pc isXirq)

/-- The I-clear delay (70_reset_and_hazards.md R740): where an instruction other than RTI takes I from 1 to 0 no
maskable request is recognised at the boundary after it; any other instruction that is finished ends the delay, and
RTI gives none. That every such instruction but RTI has the delay is the spec's decision D21. -/
def Obligations.ClearingTheIMaskDelaysMaskableInterrupts : Prop :=
  ∀ (s : State) (i : Instr) (n : Nat) (t u : State), s.schedule.headD [] = [] → s.run = .running →
    s.bdm.request = false → s.bdm.tracing = false → s.progress = .none → interruptHere s = none →
    fetchInstr s = .ok (i, n) → fetchStale s n = false →
    exec i { s with schedule := s.schedule.tail, pc := s.pc + BitVec.ofNat 16 n } = .next t → t.progress = .none →
    step s = .next u →
    u.iDelay = (s.flagI && !t.flagI && decide (i ≠ .rti)) ∧ (u.iDelay = true → ∀ v, recognised u ≠ some (v, false))

/-- The waiting state ends by an unmasked interrupt, with no second frame, and by nothing else but a reset
(49_ccr_stop_misc.md R631); the stopped state by XIRQ with X = 0 or an unmasked IRQ in the handler, by XIRQ with X = 1
at the instruction after STOP with SP restored, and not by a masked IRQ (R627, R628). A source that the device adds to
IRQ as an end of a STOP (U23) ends it as IRQ does, the one of highest priority of those that ask. Active BDM stays
without a command. The restored SP and the masked IRQ are the spec's decisions D16 and D17; that a masked XIRQ goes on
before an unmasked IRQ is taken is the model's choice (log 19), as is that active BDM holds interrupts off whatever
the pins are (D20, log 21, with logs 28 and 36). -/
def Obligations.SuspendedStatesEndAsTheTransitionTableSays : Prop :=
  (∀ s : State, s.schedule.headD [] = [] → s.bdm.tracing = false → s.run = .waiting →
    let s' := { s with schedule := s.schedule.tail, budget := none, stores := [], earlier := none, free := s.free + 1 }
    (recognised s = none → step s = .next s') ∧
    (∀ v isXirq, recognised s = some (v, isXirq) → Completes (step s) fun t =>
      CcrIs t s.flagS (s.flagX || isXirq) s.flagH true s.flagN s.flagZ s.flagV s.flagC ∧
      t = { s' with run := .running, ccr := t.ccr, pc := read16 s .vector v, stale := [], tmp1 := t.tmp1,
                    tmp2 := t.tmp2, tmp3 := t.tmp3 })) ∧
  (∀ s : State, s.schedule.headD [] = [] → s.bdm.tracing = false → s.run = .stopped →
    let ends (v : Word) : Prop :=
      v ∈ s.pins.requests ∧ isMaskableVector s.cfg v = true ∧ (v = 0xFFF2 ∨ v ∈ s.cfg.stopWake)
    let s' := { s with schedule := s.schedule.tail, budget := none, stores := [], earlier := none, free := s.free + 1 }
    (s.pins.xirq = true → s.flagX = true → step s = .next { s' with run := .running, sp := s.sp + 9 }) ∧
    (s.pins.xirq = true → s.flagX = false → Completes (step s) fun t =>
      CcrIs t s.flagS true s.flagH true s.flagN s.flagZ s.flagV s.flagC ∧
      t = { s' with run := .running, ccr := t.ccr, pc := read16 s .vector 0xFFF4, stale := [], tmp1 := t.tmp1,
                    tmp2 := t.tmp2, tmp3 := t.tmp3 }) ∧
    (∀ v, s.pins.xirq = false → s.flagI = false → ends v →
      (∀ w, ends w → maskablePriority s.cfg w ≤ maskablePriority s.cfg v) → Completes (step s) fun t =>
      CcrIs t s.flagS s.flagX s.flagH true s.flagN s.flagZ s.flagV s.flagC ∧
      t = { s' with run := .running, ccr := t.ccr, pc := read16 s .vector v, stale := [], tmp1 := t.tmp1,
                    tmp2 := t.tmp2, tmp3 := t.tmp3 }) ∧
    (s.pins.xirq = false → s.flagI = true ∨ (∀ v, ¬ ends v) → step s = .next s')) ∧
  (∀ s : State, s.schedule.headD [] = [] → s.run = .bdmActive →
    step s = .next { s with schedule := s.schedule.tail, budget := none, stores := [], earlier := none, free := s.free + 1 })

/-! ## Memory and operand forms -/

/-- The primitives (20_memory.md R61, R62, R64): every read, whatever it is for, gives the byte that the map has at
its address, from storage or a page register, and where there is none, at a device or at nothing, some value (R73, D3,
log 8); a word is read and written high byte first, the byte after $FFFF is $0000; what is stored reads back, and
nothing else changes. Reads are those of a step with no BDM command inside it; the others see memory as it was (log
38). That a word at $FFFF goes on at $0000 is the spec's decision D2 (log 7), and that both bytes of a word write are
located before the first is stored is the model's choice (log 31), as is that a store of the CPU is remembered until
its step ends (log 38). -/
def Obligations.MemoryReadsBackWhatIsStored : Prop :=
  (∀ (s : State) (d : Draw) (a : Word), s.earlier = none →
    (∀ v, byteAt s a = some v → read8 s d a = v) ∧ (byteAt s a = none → read8 s d a = Config.freeByte s.free d a)) ∧
  (∀ (s : State) (a : Word), byteAt s a = match locate s a with
    | .cell k _ => some (memGet s.mem k)
    | .ppage => some s.ppage
    | .dpage => some s.dpage
    | .epage => some s.epage
    | .device => none
    | .nothing => none) ∧
  (∀ (s : State) (d : Draw) (a : Word), (read16 s d a).toNat = 256 * (read8 s d a).toNat + (read8 s d (a + 1)).toNat) ∧
  (∀ (s : State) (a : Word) (v : Byte), Stored s (write8 s a v) a v ∧ StoresOnly s (write8 s a v) [a]) ∧
  (∀ (s : State) (a v : Word), StoredWord s (write16 s a v) a v ∧ StoresOnly s (write16 s a v) [a, a + 1]) ∧
  (∀ (s : State) (a : Word) (v : Byte), store8 s a v = { write8 s a v with stores := .byte a v :: s.stores }) ∧
  (∀ (s : State) (a v : Word), store16 s a v = { write16 s a v with stores := .word a v :: s.stores })

/-- The memory map (20_memory.md R72, R75 to R78). Of the resources that hold an address the one of the highest
precedence (registers, exception vectors, RAM, EEPROM, FLASH) is reached, and no window hides it; storage is numbered
from the origin of its region. An address that no resource holds reaches the block of external memory that answers it,
and nothing, with no value there, where no block does: in the program window at PPAGE over 14 address bits, in the
data window at 1:1:DPAGE over 12, in the extra window at 1:1:1:1:EPAGE over 10, outside the windows at six 1s over 16
bits with an 8-bit PPAGE and at page $3D, $3E or $3F with a 6-bit one; other widths of PPAGE follow log 9. A page
register takes the byte that is written to its address, PPAGE modulo 2 to its width, which is the spec's decision D6
(log 9). That a store to FLASH changes nothing is its decision D3 (R73). The model's choices: that a plain store to
EEPROM lands (log 8); which of two resources of one class is reached, the 8 bits of DPAGE and EPAGE, the 1-megabyte
form on an M68HC12 with a 6-bit PPAGE, and page $3E at $8000 to $BFFF with the window disabled (log 32). -/
def Obligations.MemoryMapFollowsPrecedenceAndWindows : Prop :=
  (([.ppageReg, .dpageReg, .epageReg, .device, .vectors true, .vectors false, .ram, .eeprom, .flash].map precedence =
    [1, 1, 1, 1, 2, 2, 3, 4, 5])) ∧
  (∀ (s : State) (a : Word) (r : Region), regionAt s.cfg.map a = some r →
    (r ∈ s.cfg.map ∧ r.first ≤ a ∧ a ≤ r.last) ∧
    (∀ q ∈ s.cfg.map, q.first ≤ a → a ≤ q.last → precedence r.res ≤ precedence q.res) ∧
    let key := (r.origin.toNat + (a.toNat - r.first.toNat)) % 65536
    (r.res = .ram ∨ r.res = .eeprom → locate s a = .cell key true) ∧
    (r.res = .flash → locate s a = .cell key false) ∧ (r.res = .device → locate s a = .device) ∧
    (∀ w, r.res = .vectors w → locate s a = .cell key w) ∧
    (r.res = .ppageReg → locate s a = if s.cfg.ppageBits = 0 then .nothing else .ppage) ∧
    (s.cfg.variant = .m68hc12 → s.cfg.dataWindows = true → (r.res = .dpageReg → locate s a = .dpage) ∧
      (r.res = .epageReg → locate s a = .epage))) ∧
  (∀ (s : State) (a : Word), (∃ r ∈ s.cfg.map, r.first ≤ a ∧ a ≤ r.last) → (regionAt s.cfg.map a).isSome = true) ∧
  (∀ (s : State) (a : Word),
    let answers (e : ExternalBlock) : Prop := (e.cpuFirst ≤ a ∧ a ≤ e.cpuLast) ∧ pathOf s a ∈ e.paths ∧
      e.first ≤ externalAddress s a ∧ externalAddress s a ≤ e.last
    ((∃ e ∈ s.cfg.external, answers e) → (externalBlockAt s a).isSome = true) ∧
    ((∀ r ∈ s.cfg.map, ¬ (r.first ≤ a ∧ a ≤ r.last)) → (∀ e ∈ s.cfg.external, ¬ answers e) →
      locate s a = .nothing ∧ byteAt s a = none)) ∧
  (∀ (s : State) (a : Word) (e : ExternalBlock), (∀ r ∈ s.cfg.map, ¬ (r.first ≤ a ∧ a ≤ r.last)) →
    externalBlockAt s a = some e →
    e ∈ s.cfg.external ∧ e.cpuFirst ≤ a ∧ a ≤ e.cpuLast ∧ pathOf s a ∈ e.paths ∧
    e.first ≤ externalAddress s a ∧ externalAddress s a ≤ e.last ∧
    locate s a = .cell (0x10000 + e.origin + (externalAddress s a - e.first)) e.writable) ∧
  (∀ (s : State) (a : Word),
    let n := a.toNat
    let data := s.cfg.variant = .m68hc12 ∧ s.cfg.dataWindows = true
    let inProgram := s.windows.pwen = true ∧ 0x8000 ≤ n ∧ n ≤ 0xBFFF
    let inData := data ∧ s.windows.dwen = true ∧ 0x7000 ≤ n ∧ n ≤ 0x7FFF
    let inExtra := data ∧ s.windows.ewen = true ∧
      (n ≤ 0x03FF ∧ s.windows.ewdir = true ∨ 0x0400 ≤ n ∧ n ≤ 0x07FF ∧ s.windows.ewdir = false)
    (pathOf s a = .program ↔ 0 < s.cfg.ppageBits ∧ inProgram) ∧ (pathOf s a = .data ↔ inData) ∧
    (pathOf s a = .extra ↔ inExtra) ∧
    (s.cfg.ppageBits = 8 → inProgram → externalAddress s a = s.ppage.toNat * 0x4000 + n % 0x4000) ∧
    (s.cfg.ppageBits = 6 → inProgram → externalAddress s a = s.ppage.toNat % 64 * 0x4000 + n % 0x4000) ∧
    (inData → externalAddress s a = 0x300000 + s.dpage.toNat * 0x1000 + n % 0x1000) ∧
    (inExtra → externalAddress s a = 0x3C0000 + s.epage.toNat * 0x400 + n % 0x400) ∧
    (s.cfg.ppageBits = 8 → ¬ inProgram → ¬ inData → ¬ inExtra → externalAddress s a = 0x3F0000 + n) ∧
    (s.cfg.ppageBits = 6 → ¬ data → (n ≤ 0x3FFF → externalAddress s a = 0x3D * 0x4000 + n) ∧
      (0x4000 ≤ n → n ≤ 0x7FFF → externalAddress s a = 0x3E * 0x4000 + n % 0x4000) ∧
      (0xC000 ≤ n → externalAddress s a = 0x3F * 0x4000 + n % 0x4000) ∧
      (0x8000 ≤ n → n ≤ 0xBFFF → s.windows.pwen = false → externalAddress s a = 0x3E * 0x4000 + n % 0x4000))) ∧
  (∀ (s : State) (a : Word) (v : Byte),
    (locate s a = .ppage → (write8 s a v).ppage.toNat = v.toNat % 2 ^ s.cfg.ppageBits) ∧
    (locate s a = .dpage → (write8 s a v).dpage = v) ∧ (locate s a = .epage → (write8 s a v).epage = v))

/-- Operands (30_encoding.md R112 to R125). The base of an indexed form is X, Y, SP or the address of the next
instruction. Effective addresses of the forms that are not indirect (R119 to R123): signed constant offsets of 5, 9
and 16 bits, unsigned accumulator offsets, and the auto-modify forms, pre before and post after; an auto-modify form
changes its register by −8 to −1 or +1 to +8 and nothing else, the other forms change nothing. Indirect forms read a
pointer, high byte first, at base plus a 16-bit constant or D, and change no register; a direct address has the high
byte $00, an extended one is the two bytes of the instruction, an immediate operand is the bytes of the instruction
(R113 to R115, R124). Every operand class takes its indexed form's address and update. The registers that a compare
sees are those at the access, after a pre-modify and before a post-modify (R122, R125); that an address is formed from
the registers at the start of the instruction is the spec's decision D8 (log 11). -/
def Obligations.EffectiveAddresses : Prop :=
  ((∀ (s : State) (p : Word), baseValue s p .x = s.x ∧ baseValue s p .y = s.y ∧ baseValue s p .sp = s.sp ∧
    baseValue s p .pc = p ∧ areg s .x = s.x ∧ areg s .y = s.y ∧ areg s .sp = s.sp) ∧
  (∀ (s : State) (i : Idx) (m : IdxX), idxXEa s (.idx i) = idxEa s s.pc i ∧ idxXUpdate s (.idx i) = idxUpdate s i ∧
    idxIEa s (.direct m) = idxXEa s m ∧ idxIUpdate s (.direct m) = idxXUpdate s m ∧
    bitEa s (.ix m) = idxXEa s m ∧ bitUpdate s (.ix m) = idxXUpdate s m) ∧
  (∀ (s : State) (m : IdxI), src8 s (.ix m) = read8 s .operand (idxIEa s m) ∧ src8Update s (.ix m) = idxIUpdate s m ∧
    src16 s (.ix m) = read16 s .operand (idxIEa s m) ∧ src16Update s (.ix m) = idxIUpdate s m ∧
    mem3Ea s (.ix m) = idxIEa s m ∧ mem3Update s (.ix m) = idxIUpdate s m ∧
    mem2Ea s (.ix m) = idxIEa s m ∧ mem2Update s (.ix m) = idxIUpdate s m) ∧
  (∀ (s : State) (a : Word), src8 s (.ext a) = read8 s .operand a ∧ src8Update s (.ext a) = s ∧
    src16 s (.ext a) = read16 s .operand a ∧ src16Update s (.ext a) = s ∧ mem3Ea s (.ext a) = a ∧
    mem3Update s (.ext a) = s ∧ mem2Ea s (.ext a) = a ∧ mem2Update s (.ext a) = s ∧ bitEa s (.ext a) = a ∧
    bitUpdate s (.ext a) = s) ∧
  (∀ (s : State) (v : Byte) (w : Word), src8 s (.imm v) = v ∧ src8Update s (.imm v) = s ∧ src16 s (.imm w) = w ∧
    src16Update s (.imm w) = s) ∧
  (∀ (s : State) (o : Src16),
    ((∃ r n, o = .ix (.direct (.idx (.auto r false n)))) → src16Access s o = src16Update s o) ∧
    ((∀ r n, o ≠ .ix (.direct (.idx (.auto r false n)))) → src16Access s o = s))) ∧
  ((∀ (s : State) (p : Word) (r : IReg) (n : BitVec 5),
    idxEa s p (.off5 r n) = BitVec.ofInt 16 ((baseValue s p r).toNat + n.toInt) ∧ idxUpdate s (.off5 r n) = s) ∧
  (∀ (s : State) (r : IReg) (n : BitVec 9),
    idxXEa s (.off9 r n) = BitVec.ofInt 16 ((baseValue s s.pc r).toNat + n.toInt) ∧ idxXUpdate s (.off9 r n) = s) ∧
  (∀ (s : State) (r : IReg) (n : Word),
    idxXEa s (.off16 r n) = BitVec.ofNat 16 ((baseValue s s.pc r).toNat + n.toNat) ∧ idxXUpdate s (.off16 r n) = s) ∧
  (∀ (s : State) (p : Word) (r : IReg),
    (idxEa s p (.acc r .a)).toNat = ((baseValue s p r).toNat + s.a.toNat) % 65536 ∧
    (idxEa s p (.acc r .b)).toNat = ((baseValue s p r).toNat + s.b.toNat) % 65536 ∧
    (idxEa s p (.acc r .d)).toNat = ((baseValue s p r).toNat + s.a.toNat * 256 + s.b.toNat) % 65536 ∧
    ∀ o, idxUpdate s (.acc r o) = s) ∧
  (∀ (s : State) (p : Word) (r : AReg) (n : BitVec 4),
    let delta : Int := if n.toNat < 8 then (n.toNat : Int) + 1 else (n.toNat : Int) - 16
    let moved : Word := BitVec.ofInt 16 ((areg s r).toNat + delta)
    idxEa s p (.auto r true n) = areg s r ∧ idxEa s p (.auto r false n) = moved ∧
    ∀ post, idxUpdate s (.auto r post n) = (match r with
      | .x => { s with x := moved }
      | .y => { s with y := moved }
      | .sp => { s with sp := moved }))) ∧
  ((∀ (s : State) (r : IReg) (n : Word), let p := BitVec.ofNat 16 ((baseValue s s.pc r).toNat + n.toNat)
    (idxIEa s (.ind16 r n)).toNat = 256 * (read8 s .pointer p).toNat + (read8 s .pointer (p + 1)).toNat ∧
    idxIUpdate s (.ind16 r n) = s) ∧
  (∀ (s : State) (r : IReg), let p := BitVec.ofNat 16 ((baseValue s s.pc r).toNat + s.a.toNat * 256 + s.b.toNat)
    (idxIEa s (.indD r)).toNat = 256 * (read8 s .pointer p).toNat + (read8 s .pointer (p + 1)).toNat ∧
    idxIUpdate s (.indD r) = s) ∧
  (∀ (s : State) (d : Byte), (mem3Ea s (.dir d)).toNat = d.toNat ∧ (bitEa s (.dir d)).toNat = d.toNat ∧
    src8 s (.dir d) = read8 s .operand (BitVec.ofNat 16 d.toNat) ∧
    src16 s (.dir d) = read16 s .operand (BitVec.ofNat 16 d.toNat) ∧ src8Update s (.dir d) = s ∧
    src16Update s (.dir d) = s ∧ mem3Update s (.dir d) = s ∧ bitUpdate s (.dir d) = s))

/-! ## Loads, stores, transfers, moves (40_load_store_move.md) -/

/-- LDAA, LDAB, LDD, LDS, LDX, LDY: the register is the operand, also where the addressing mode modifies that
register, which is the spec's decision D8 (log 11); N and Z are the operand's, V is 0; memory is as it was. -/
def Obligations.LoadsPutTheOperandInTheRegister : Prop :=
  OnA .ldaa (fun s t _ m r => r = m ∧ FlagsNZV s t (negative m) (zero m) false) ∧
  OnB .ldab (fun s t _ m r => r = m ∧ FlagsNZV s t (negative m) (zero m) false) ∧
  OnD .ldd (fun s t _ m r => r = m ∧ FlagsNZV s t (negative m) (zero m) false) ∧
  (∀ (s : State) (o : Src16), Completes (exec (.lds o) s) fun t =>
    t.sp = src16 s o ∧ FlagsNZV s t (negative (src16 s o)) (zero (src16 s o)) false ∧ ReadsSame s t ∧
    t = { src16Update s o with sp := t.sp, ccr := t.ccr }) ∧
  (∀ (s : State) (o : Src16), Completes (exec (.ldx o) s) fun t =>
    t.x = src16 s o ∧ FlagsNZV s t (negative (src16 s o)) (zero (src16 s o)) false ∧ ReadsSame s t ∧
    t = { src16Update s o with x := t.x, ccr := t.ccr }) ∧
  (∀ (s : State) (o : Src16), Completes (exec (.ldy o) s) fun t =>
    t.y = src16 s o ∧ FlagsNZV s t (negative (src16 s o)) (zero (src16 s o)) false ∧ ReadsSame s t ∧
    t = { src16Update s o with y := t.y, ccr := t.ccr })

/-- STAA, STAB, STD, STS, STX, STY: the register is stored at the operand's address, nothing else in memory changes; N
and Z are the stored value's, V is 0. Where the operand pre-modifies the stored register the value is undefined (D8):
some value is stored, with its flags. -/
def Obligations.StoresWriteTheRegisterAtTheAddress : Prop :=
  (∀ (r : AReg) (m : Mem3), preModifies r m = true ↔ ∃ n, m = .ix (.direct (.idx (.auto r false n)))) ∧
  StoresByte .staa State.a ∧ StoresByte .stab State.b ∧ StoresWord .std State.d (fun _ => false) ∧
  StoresWord .sts State.sp (preModifies .sp) ∧ StoresWord .stx State.x (preModifies .x) ∧
  StoresWord .sty State.y (preModifies .y)

/-- TAB and TBA copy and set N and Z, V = 0. TFR, SEX and their translated mnemonics put the low byte of the source
into an 8-bit register and the sign-extended source into a 16-bit one, and change nothing else; register code 3 reads
as some value. -/
def Obligations.TransfersTruncateAndSignExtend : Prop :=
  (∀ s : State, Completes (exec .tab s) fun t => t.b = s.a ∧ FlagsNZV s t (negative s.a) (zero s.a) false ∧
    t = { s with b := t.b, ccr := t.ccr }) ∧
  (∀ s : State, Completes (exec .tba s) fun t => t.a = s.b ∧ FlagsNZV s t (negative s.b) (zero s.b) false ∧
    t = { s with a := t.a, ccr := t.ccr }) ∧
  (∀ (s : State) (src dst : TReg), Completes (exec (.tfr src dst) s) fun t =>
    ∃ w : Int, (src ≠ .tmp → w = tregSigned s src) ∧ Transferred s t w dst) ∧
  (∀ (s : State) (src : Abc) (dst : Dxys), Completes (exec (.sex src dst) s) fun t =>
    Transferred s t (tregSigned s src.toTReg) dst.toTReg) ∧
  (∀ s : State, Completes (exec .tap s) fun t => Transferred s t (tregSigned s .a) .ccr) ∧
  (∀ s : State, exec .tpa s = .next { s with a := s.ccr }) ∧
  (∀ s : State, exec .tsx s = .next { s with x := s.sp }) ∧
  (∀ s : State, exec .tsy s = .next { s with y := s.sp }) ∧
  (∀ s : State, exec .txs s = .next { s with sp := s.x }) ∧
  (∀ s : State, exec .tys s = .next { s with sp := s.y })

/-- EXG: registers of one width exchange (the CCR under the X-bit rule); an 8-bit first operand goes into a 16-bit
second with a high byte of $00 and takes its low byte; an 8-bit second operand goes into a 16-bit first with a high
byte of $00 for A and $FF for B and CCR and takes its low byte; A,D gives D = $00 : A and D,A exchanges A and B. What
overlaps neither operand keeps its value, and nothing outside the register set changes. -/
def Obligations.ExchangesFollowTheRegisterTable : Prop :=
  (∀ (s : State) (r q : TReg), Completes (exec (.exg r q) s) fun t =>
    (∀ k, k ≠ .tmp → tregOverlap k r = false → tregOverlap k q = false → tregVal t k = tregVal s k) ∧
    t = { s with a := t.a, b := t.b, x := t.x, y := t.y, sp := t.sp, ccr := t.ccr, tmp2 := t.tmp2, tmp3 := t.tmp3 } ∧
    (r ∈ [TReg.a, .b] → q ∈ [TReg.a, .b] → tregVal t r = tregVal s q ∧ tregVal t q = tregVal s r) ∧
    (r ∈ [TReg.d, .x, .y, .sp] → q ∈ [TReg.d, .x, .y, .sp] →
      tregVal t r = tregVal s q ∧ tregVal t q = tregVal s r) ∧
    (r ∈ [TReg.a, .b] → q ∈ [TReg.x, .y, .sp] →
      tregVal t q = tregVal s r ∧ tregVal t r = tregVal s q % 256) ∧
    (r ∈ [TReg.x, .y, .sp] → q = .a → tregVal t r = tregVal s .a ∧ tregVal t .a = tregVal s r % 256) ∧
    (r ∈ [TReg.x, .y, .sp] → q = .b → tregVal t r = 0xFF00 + tregVal s .b ∧ tregVal t .b = tregVal s r % 256) ∧
    (r = .ccr → q ∈ [TReg.a, .b] → tregVal t q = tregVal s .ccr ∧ LoadsCcr s t (BitVec.ofNat 8 (tregVal s q))) ∧
    (r ∈ [TReg.a, .b] → q = .ccr → tregVal t r = tregVal s .ccr ∧ LoadsCcr s t (BitVec.ofNat 8 (tregVal s r))) ∧
    (r = .ccr → q ∈ [TReg.d, .x, .y, .sp] →
      tregVal t q = tregVal s .ccr ∧ LoadsCcr s t (BitVec.ofNat 8 (tregVal s q))) ∧
    (r ∈ [TReg.d, .x, .y, .sp] → q = .ccr →
      tregVal t r = 0xFF00 + tregVal s .ccr ∧ LoadsCcr s t (BitVec.ofNat 8 (tregVal s r))) ∧
    (r = .a → q = .d → tregVal t .d = tregVal s .a) ∧
    (r = .d → q = .a → tregVal t .a = tregVal s .b ∧ tregVal t .b = tregVal s .a) ∧
    (r = .b → q = .d → tregVal t .d = tregVal s .b) ∧
    (r = .d → q = .b → tregVal t .d = 0xFF00 + tregVal s .b)) ∧
  (∀ s : State, exec .xgdx s = .next { s with a := BitVec.ofNat 8 (s.x.toNat / 256), b := BitVec.ofNat 8 s.x.toNat,
                                               x := BitVec.ofNat 16 (s.a.toNat * 256 + s.b.toNat) }) ∧
  (∀ s : State, exec .xgdy s = .next { s with a := BitVec.ofNat 8 (s.y.toNat / 256), b := BitVec.ofNat 8 s.y.toNat,
                                               y := BitVec.ofNat 16 (s.a.toNat * 256 + s.b.toNat) })

/-- MOVB and MOVW: the source is read, its postbyte's update done, then the destination's address formed, and the
value stored there; no flag changes and nothing else in memory (R195 to R198). PC in a postbyte stands for the address
of the next instruction, on M68HC12 with the offset of Table 3-3 (R196): source −2 to an extended destination and −1
to an indexed one; destination +1 from an immediate or indexed source of MOVB and +2 from an extended one, +2 from an
immediate or extended source of MOVW and +1 from an indexed one. That the source's update comes before the
destination's address is the spec's decision D8 (log 11). -/
def Obligations.MovesCopyTheSourceToTheDestination : Prop :=
  (∀ (s : State) (k : Word), movePc s k = if s.cfg.variant = .hcs12 then s.pc else s.pc + k) ∧
  (∀ (a w : Word) (v : Byte) (m : Idx), sourceOffset (.ext a) = -2 ∧ sourceOffset (.ix m) = -1 ∧
    destOffset8 (.imm v) = 1 ∧ destOffset8 (.ext a) = 2 ∧ destOffset8 (.ix m) = 1 ∧
    destOffset16 (.imm w) = 2 ∧ destOffset16 (.ext a) = 2 ∧ destOffset16 (.ix m) = 1) ∧
  (∀ (s : State) (dst : MovDst) (a w k : Word) (v : Byte) (m : Idx),
    let p := movePc s (sourceOffset dst)
    moveSource8 s dst (.imm v) = v ∧ moveSource8 s dst (.ext a) = read8 s .operand a ∧
    moveSource8 s dst (.ix m) = read8 s .operand (idxEa s p m) ∧
    moveSource16 s dst (.imm w) = w ∧ moveSource16 s dst (.ext a) = read16 s .operand a ∧
    moveSource16 s dst (.ix m) = read16 s .operand (idxEa s p m) ∧
    moveDestEa s k (.ext a) = a ∧ moveDestEa s k (.ix m) = idxEa s (movePc s k) m ∧
    moveSource8Update s (.imm v) = s ∧ moveSource8Update s (.ext a) = s ∧ moveSource8Update s (.ix m) = idxUpdate s m ∧
    moveSource16Update s (.imm w) = s ∧ moveSource16Update s (.ext a) = s ∧
    moveSource16Update s (.ix m) = idxUpdate s m ∧
    moveDestUpdate s (.ext a) = s ∧ moveDestUpdate s (.ix m) = idxUpdate s m) ∧
  (∀ (s : State) (src : MovSrc8) (dst : MovDst), Completes (exec (.movb src dst) s) fun t =>
    let s1 := moveSource8Update s src
    let ea := moveDestEa s1 (destOffset8 src) dst
    Stored s t ea (moveSource8 s dst src) ∧ StoresOnly s t [ea] ∧ OnlyStores (moveDestUpdate s1 dst) t) ∧
  (∀ (s : State) (src : MovSrc16) (dst : MovDst), Completes (exec (.movw src dst) s) fun t =>
    let s1 := moveSource16Update s src
    let ea := moveDestEa s1 (destOffset16 src) dst
    StoredWord s t ea (moveSource16 s dst src) ∧ StoresOnly s t [ea, ea + 1] ∧ OnlyStores (moveDestUpdate s1 dst) t)

/-! ## Arithmetic (41_arith.md) -/

/-- ADDA, ADDB, ADCA, ADCB, ABA: the sum modulo 256, C the carry out, V the signed overflow, H the carry out of bit 3.
ADDD: the sum modulo 65536, H kept. -/
def Obligations.AdditionsSetSumCarryAndOverflow : Prop :=
  OnA .adda (fun s t a m r => IsSum a m false r ∧ SumFlagsH s t a m false r) ∧
  OnB .addb (fun s t a m r => IsSum a m false r ∧ SumFlagsH s t a m false r) ∧
  OnA .adca (fun s t a m r => IsSum a m s.flagC r ∧ SumFlagsH s t a m s.flagC r) ∧
  OnB .adcb (fun s t a m r => IsSum a m s.flagC r ∧ SumFlagsH s t a m s.flagC r) ∧
  ModifiesA .aba (fun s t a r => IsSum a s.b false r ∧ SumFlagsH s t a s.b false r) ∧
  OnD .addd (fun s t a m r => IsSum a m false r ∧ SumFlags s t a m false r)

/-- SUBA, SUBB, SBCA, SBCB, SBA, SUBD: the difference modulo 2^w, C the borrow, V the signed overflow, H kept. -/
def Obligations.SubtractionsSetDifferenceBorrowAndOverflow : Prop :=
  OnA .suba (fun s t a m r => IsDiff a m false r ∧ DiffFlags s t a m false r) ∧
  OnB .subb (fun s t a m r => IsDiff a m false r ∧ DiffFlags s t a m false r) ∧
  OnA .sbca (fun s t a m r => IsDiff a m s.flagC r ∧ DiffFlags s t a m s.flagC r) ∧
  OnB .sbcb (fun s t a m r => IsDiff a m s.flagC r ∧ DiffFlags s t a m s.flagC r) ∧
  ModifiesA .sba (fun s t a r => IsDiff a s.b false r ∧ DiffFlags s t a s.b false r) ∧
  OnD .subd (fun s t a m r => IsDiff a m false r ∧ DiffFlags s t a m false r)

/-- CMPA, CMPB, CBA, CPD, CPS, CPX, CPY: the flags of the difference, no register but one that the addressing mode
modifies. CPS, CPX and CPY compare the register as it is at the access: a pre-modify of it comes before, a post-modify
after (30_encoding.md R122, R125; that R125 means so is deduced, log 11). -/
def Obligations.ComparesSetTheFlagsOfTheDifference : Prop :=
  Tests8 .cmpa State.a (fun s t a m => ∀ r, IsDiff a m false r → DiffFlags s t a m false r) ∧
  Tests8 .cmpb State.b (fun s t a m => ∀ r, IsDiff a m false r → DiffFlags s t a m false r) ∧
  (∀ s : State, Completes (exec .cba s) fun t =>
    (∀ r, IsDiff s.a s.b false r → DiffFlags s t s.a s.b false r) ∧ ReadsSame s t ∧ t = { s with ccr := t.ccr }) ∧
  Tests16 .cpd State.d (fun s t a m => ∀ r, IsDiff a m false r → DiffFlags s t a m false r) ∧
  Tests16 .cps State.sp (fun s t a m => ∀ r, IsDiff a m false r → DiffFlags s t a m false r) ∧
  Tests16 .cpx State.x (fun s t a m => ∀ r, IsDiff a m false r → DiffFlags s t a m false r) ∧
  Tests16 .cpy State.y (fun s t a m => ∀ r, IsDiff a m false r → DiffFlags s t a m false r)

/-- DAA after ABA, ADDA or ADCA of packed BCD digits (R240): with A, H and C as the sum `p + q + c` of two BCD bytes
and a carry leaves them, A becomes the two low decimal digits of the decimal sum and C the hundreds digit; N and Z are
the result's, V is undefined. From any other state DAA completes too, changing A and N, Z, V, C alone; that A then
takes some value that N and Z follow is the spec's decision D9 and not R240 (log 12). -/
def Obligations.DecimalAdjustCorrectsBcdSums : Prop :=
  (∀ s : State, Completes (exec .daa s) fun t =>
    (∃ v, FlagsNZVC s t (negative t.a) (zero t.a) v t.flagC) ∧ ReadsSame s t ∧ t = { s with a := t.a, ccr := t.ccr }) ∧
  (∀ (s : State) (p q : Nat) (c : Bool), p < 100 → q < 100 →
    let bp := p / 10 * 16 + p % 10
    let bq := q / 10 * 16 + q % 10
    s.a.toNat = (bp + bq + c.toNat) % 256 → s.flagC = decide (256 ≤ bp + bq + c.toNat) →
    s.flagH = decide (16 ≤ p % 10 + q % 10 + c.toNat) →
    Completes (exec .daa s) fun t =>
      t.a.toNat = (p + q + c.toNat) % 100 / 10 * 16 + (p + q + c.toNat) % 10 ∧
      t.flagC = decide (100 ≤ p + q + c.toNat))

/-- INC and DEC on A, B and memory: one more or less modulo 256, V at $7F and at $80, C kept. NEG: 0 − M, V at $80, C
unless 0. COM: 255 − M, V = 0, C = 1. CLR: 0, N = V = C = 0, Z = 1. TST: N and Z, V = C = 0 (42_logic_bit.md R300 to
R308). -/
def Obligations.OneOperandArithmetic : Prop :=
  Modifies8 .inca .incb .inc (fun s t m r =>
    r.toNat = (m.toNat + 1) % 256 ∧ FlagsNZV s t (negative r) (zero r) (decide (m.toNat = 127))) ∧
  Modifies8 .deca .decb .dec (fun s t m r =>
    r.toNat = (m.toNat + 255) % 256 ∧ FlagsNZV s t (negative r) (zero r) (decide (m.toNat = 128))) ∧
  Modifies8 .nega .negb .neg (fun s t m r =>
    r.toNat = (256 - m.toNat) % 256 ∧ FlagsNZVC s t (negative r) (zero r) (decide (m.toNat = 128)) (decide (m.toNat ≠ 0))) ∧
  Modifies8 .coma .comb .com (fun s t m r =>
    r.toNat = 255 - m.toNat ∧ FlagsNZVC s t (negative r) (zero r) false true) ∧
  Modifies8 .clra .clrb .clr (fun s t _ r => r.toNat = 0 ∧ FlagsNZVC s t false true false false) ∧
  ModifiesA .tsta (fun s t m r => r = m ∧ FlagsNZVC s t (negative m) (zero m) false false) ∧
  ModifiesB .tstb (fun s t m r => r = m ∧ FlagsNZVC s t (negative m) (zero m) false false) ∧
  (∀ (s : State) (m : Mem2), Completes (exec (.tst m) s) fun t => let v := read8 s .operand (mem2Ea s m)
    FlagsNZVC s t (negative v) (zero v) false false ∧ ReadsSame s t ∧ t = { mem2Update s m with ccr := t.ccr })

/-- INX, INY, DEX, DEY: one more or less modulo 65536, and Z alone of the flags; INS, DES, ABX, ABY: no flag; LEAS,
LEAX, LEAY: the effective address, no flag, and a post-modify of the same register is lost (48_index_stack_lea.md). -/
def Obligations.IndexRegisterArithmetic : Prop :=
  ModifiesX .inx (fun s t x r => r.toNat = (x.toNat + 1) % 65536 ∧ FlagsNZV s t s.flagN (zero r) s.flagV) ∧
  ModifiesY .iny (fun s t y r => r.toNat = (y.toNat + 1) % 65536 ∧ FlagsNZV s t s.flagN (zero r) s.flagV) ∧
  ModifiesX .dex (fun s t x r => r.toNat = (x.toNat + 65535) % 65536 ∧ FlagsNZV s t s.flagN (zero r) s.flagV) ∧
  ModifiesY .dey (fun s t y r => r.toNat = (y.toNat + 65535) % 65536 ∧ FlagsNZV s t s.flagN (zero r) s.flagV) ∧
  (∀ s : State, exec .ins s = .next { s with sp := BitVec.ofNat 16 (s.sp.toNat + 1) }) ∧
  (∀ s : State, exec .des s = .next { s with sp := BitVec.ofNat 16 (s.sp.toNat + 65535) }) ∧
  (∀ s : State, exec .abx s = .next { s with x := BitVec.ofNat 16 (s.x.toNat + s.b.toNat) }) ∧
  (∀ s : State, exec .aby s = .next { s with y := BitVec.ofNat 16 (s.y.toNat + s.b.toNat) }) ∧
  (∀ (s : State) (m : IdxX), exec (.leas m) s = .next { idxXUpdate s m with sp := idxXEa s m }) ∧
  (∀ (s : State) (m : IdxX), exec (.leax m) s = .next { idxXUpdate s m with x := idxXEa s m }) ∧
  (∀ (s : State) (m : IdxX), exec (.leay m) s = .next { idxXUpdate s m with y := idxXEa s m })

/-! ## Logic and bits (42_logic_bit.md) -/

/-- ANDA, ANDB, EORA, EORB, ORAA, ORAB, BITA, BITB bit by bit; N and Z of the result, V = 0, H and C kept. -/
def Obligations.LogicWorksBitByBit : Prop :=
  OnA .anda (fun s t a m r => (∀ k, r.getLsbD k = (a.getLsbD k && m.getLsbD k)) ∧ FlagsNZV s t (negative r) (zero r) false) ∧
  OnB .andb (fun s t a m r => (∀ k, r.getLsbD k = (a.getLsbD k && m.getLsbD k)) ∧ FlagsNZV s t (negative r) (zero r) false) ∧
  OnA .eora (fun s t a m r => (∀ k, r.getLsbD k = (a.getLsbD k != m.getLsbD k)) ∧ FlagsNZV s t (negative r) (zero r) false) ∧
  OnB .eorb (fun s t a m r => (∀ k, r.getLsbD k = (a.getLsbD k != m.getLsbD k)) ∧ FlagsNZV s t (negative r) (zero r) false) ∧
  OnA .oraa (fun s t a m r => (∀ k, r.getLsbD k = (a.getLsbD k || m.getLsbD k)) ∧ FlagsNZV s t (negative r) (zero r) false) ∧
  OnB .orab (fun s t a m r => (∀ k, r.getLsbD k = (a.getLsbD k || m.getLsbD k)) ∧ FlagsNZV s t (negative r) (zero r) false) ∧
  Tests8 .bita State.a (fun s t a m => ∀ r : Byte, (∀ k, r.getLsbD k = (a.getLsbD k && m.getLsbD k)) →
    FlagsNZV s t (negative r) (zero r) false) ∧
  Tests8 .bitb State.b (fun s t a m => ∀ r : Byte, (∀ k, r.getLsbD k = (a.getLsbD k && m.getLsbD k)) →
    FlagsNZV s t (negative r) (zero r) false)

/-- BSET sets and BCLR clears the bits of the mask in one byte of memory and no other bit; N and Z of the byte
written, V = 0. -/
def Obligations.BitInstructionsChangeTheMaskedBits : Prop :=
  ∀ (s : State) (m : BitEa) (mask : Byte),
    (Completes (exec (.bset m mask) s) fun t => ∃ r : Byte,
      (∀ k, r.getLsbD k = ((read8 s .operand (bitEa s m)).getLsbD k || mask.getLsbD k)) ∧
      Stored s t (bitEa s m) r ∧ StoresOnly s t [bitEa s m] ∧ FlagsNZV s t (negative r) (zero r) false ∧
      OnlyStores { bitUpdate s m with ccr := t.ccr } t) ∧
    (Completes (exec (.bclr m mask) s) fun t => ∃ r : Byte,
      (∀ k, r.getLsbD k = ((read8 s .operand (bitEa s m)).getLsbD k && !mask.getLsbD k)) ∧
      Stored s t (bitEa s m) r ∧ StoresOnly s t [bitEa s m] ∧ FlagsNZV s t (negative r) (zero r) false ∧
      OnlyStores { bitUpdate s m with ccr := t.ccr } t)

/-! ## Multiplication and division (43_muldiv.md) -/

/-- MUL: D = A × B, C its bit 7, no other flag. EMUL, EMULS: Y : D = D × Y unsigned and signed, N and Z over 32 bits,
C its bit 15, V kept (R345 to R347). -/
def Obligations.MultiplicationsGiveTheWholeProduct : Prop :=
  (∀ s : State, Completes (exec .mul s) fun t =>
    t.d.toNat = s.a.toNat * s.b.toNat ∧ FlagsNZVC s t s.flagN s.flagZ s.flagV (decide (128 ≤ t.d.toNat % 256)) ∧
    ReadsSame s t ∧ t = { s with a := t.a, b := t.b, ccr := t.ccr }) ∧
  (∀ s : State, Completes (exec .emul s) fun t => let p := s.d.toNat * s.y.toNat
    t.y.toNat * 65536 + t.d.toNat = p ∧
    FlagsNZVC s t (decide (2 ^ 31 ≤ p)) (decide (p = 0)) s.flagV (decide (32768 ≤ p % 65536)) ∧
    ReadsSame s t ∧ t = { s with a := t.a, b := t.b, y := t.y, ccr := t.ccr }) ∧
  (∀ s : State, Completes (exec .emuls s) fun t => let p : Int := s.d.toInt * s.y.toInt
    t.y.toInt * 65536 + t.d.toNat = p ∧
    FlagsNZVC s t (decide (p < 0)) (decide (p = 0)) s.flagV (decide (32768 ≤ p % 65536)) ∧
    ReadsSame s t ∧ t = { s with a := t.a, b := t.b, y := t.y, ccr := t.ccr })

/-- EDIV, IDIV, FDIV, unsigned: quotient and remainder where the divisor is not 0 and the quotient fits; by 0, C = 1,
with EDIV leaving its registers and FDIV and IDIV putting $FFFF into X; an overflow sets V. Flags and registers that
the source calls undefined take some value (R350, R352, R353). That registers after an EDIV overflow are undefined is
the spec's decision D11. -/
def Obligations.UnsignedDivisions : Prop :=
  (∀ s : State, Completes (exec .ediv s) fun t => let n := s.y.toNat * 65536 + s.a.toNat * 256 + s.b.toNat
    ReadsSame s t ∧ t = { s with a := t.a, b := t.b, y := t.y, ccr := t.ccr } ∧
    (s.x.toNat = 0 → t.y = s.y ∧ t.d = s.d ∧ ∃ a b c, FlagsNZVC s t a b c true) ∧
    (s.x.toNat ≠ 0 → n / s.x.toNat ≤ 65535 → t.y.toNat = n / s.x.toNat ∧ t.d.toNat = n % s.x.toNat ∧
      FlagsNZVC s t (negative t.y) (zero t.y) false false) ∧
    (s.x.toNat ≠ 0 → 65535 < n / s.x.toNat → ∃ a b, FlagsNZVC s t a b true false)) ∧
  (∀ s : State, Completes (exec .idiv s) fun t => let n := s.a.toNat * 256 + s.b.toNat
    ReadsSame s t ∧ t = { s with a := t.a, b := t.b, x := t.x, ccr := t.ccr } ∧
    (s.x.toNat = 0 → t.x = 0xFFFF ∧ FlagsNZVC s t s.flagN false false true) ∧
    (s.x.toNat ≠ 0 → t.x.toNat = n / s.x.toNat ∧ t.d.toNat = n % s.x.toNat ∧
      FlagsNZVC s t s.flagN (zero t.x) false false)) ∧
  (∀ s : State, Completes (exec .fdiv s) fun t => let n := s.a.toNat * 256 + s.b.toNat
    ReadsSame s t ∧ t = { s with a := t.a, b := t.b, x := t.x, ccr := t.ccr } ∧
    (s.x.toNat ≤ n → t.x = 0xFFFF ∧ FlagsNZVC s t s.flagN false true (decide (s.x.toNat = 0))) ∧
    (n < s.x.toNat → t.x.toNat = n * 65536 / s.x.toNat ∧ t.d.toNat = n * 65536 % s.x.toNat ∧
      FlagsNZVC s t s.flagN (zero t.x) false false))

/-- EDIVS and IDIVS, signed: where the divisor is not 0 and the quotient fits, quotient times divisor plus remainder
is the dividend, the remainder is smaller in size than the divisor and has the sign of the dividend, which is the
direction of rounding that the spec supplies (D10, log 13); by 0, C = 1 and the registers stay; an overflow sets V
(R351, R354). -/
def Obligations.SignedDivisions : Prop :=
  (∀ s : State, Completes (exec .edivs s) fun t => let n : Int := s.y.toInt * 65536 + s.d.toNat
    ReadsSame s t ∧ t = { s with a := t.a, b := t.b, y := t.y, ccr := t.ccr } ∧
    (s.x.toInt = 0 → t.y = s.y ∧ t.d = s.d ∧ ∃ a b c, FlagsNZVC s t a b c true) ∧
    (s.x.toInt ≠ 0 → outOfRange 16 (n.tdiv s.x.toInt) = false →
      t.y.toInt * s.x.toInt + t.d.toInt = n ∧ t.d.toInt.natAbs < s.x.toInt.natAbs ∧ 0 ≤ t.d.toInt * n ∧
      FlagsNZVC s t (negative t.y) (zero t.y) false false) ∧
    (s.x.toInt ≠ 0 → outOfRange 16 (n.tdiv s.x.toInt) = true → ∃ a b, FlagsNZVC s t a b true false)) ∧
  (∀ s : State, Completes (exec .idivs s) fun t => let n : Int := s.d.toInt
    ReadsSame s t ∧ t = { s with a := t.a, b := t.b, x := t.x, ccr := t.ccr } ∧
    (s.x.toInt = 0 → t.x = s.x ∧ t.d = s.d ∧ ∃ a b c, FlagsNZVC s t a b c true) ∧
    (s.x.toInt ≠ 0 → outOfRange 16 (n.tdiv s.x.toInt) = false →
      t.x.toInt * s.x.toInt + t.d.toInt = n ∧ t.d.toInt.natAbs < s.x.toInt.natAbs ∧ 0 ≤ t.d.toInt * n ∧
      FlagsNZVC s t (negative t.x) (zero t.x) false false) ∧
    (s.x.toInt ≠ 0 → outOfRange 16 (n.tdiv s.x.toInt) = true → ∃ a b, FlagsNZVC s t a b true false))

/-! ## Shifts and rotates (44_shift_rotate.md) -/

/-- ASL and LSL, ASR, LSR on A, B, memory and D: doubling modulo 2^w with C the bit shifted out; halving as a signed
number; halving as an unsigned one; C the bit shifted out, V = N ⊕ C. ROL and ROR on A, B and memory: C comes in at
one end and the bit at the other end goes out to C, V = N ⊕ C. -/
def Obligations.ShiftsAndRotates : Prop :=
  (Modifies8 .asla .aslb .asl (fun s t m r => r.toNat = 2 * m.toNat % 256 ∧ ShiftFlags s t r (decide (128 ≤ m.toNat))) ∧
  Modifies8 .lsla .lslb .lsl (fun s t m r => r.toNat = 2 * m.toNat % 256 ∧ ShiftFlags s t r (decide (128 ≤ m.toNat))) ∧
  ModifiesD .asld (fun s t m r => r.toNat = 2 * m.toNat % 65536 ∧ ShiftFlags s t r (decide (32768 ≤ m.toNat))) ∧
  ModifiesD .lsld (fun s t m r => r.toNat = 2 * m.toNat % 65536 ∧ ShiftFlags s t r (decide (32768 ≤ m.toNat))) ∧
  Modifies8 .asra .asrb .asr (fun s t m r => r.toInt = m.toInt / 2 ∧ ShiftFlags s t r (decide (m.toNat % 2 = 1))) ∧
  Modifies8 .lsra .lsrb .lsr (fun s t m r => r.toNat = m.toNat / 2 ∧ ShiftFlags s t r (decide (m.toNat % 2 = 1))) ∧
  ModifiesD .lsrd (fun s t m r => r.toNat = m.toNat / 2 ∧ ShiftFlags s t r (decide (m.toNat % 2 = 1)))) ∧
  (Modifies8 .rola .rolb .rol (fun s t m r =>
    r.toNat = 2 * m.toNat % 256 + s.flagC.toNat ∧ ShiftFlags s t r (decide (128 ≤ m.toNat))) ∧
  Modifies8 .rora .rorb .ror (fun s t m r =>
    r.toNat = m.toNat / 2 + 128 * s.flagC.toNat ∧ ShiftFlags s t r (decide (m.toNat % 2 = 1))))

/-! ## Fuzzy logic, minimum and maximum, multiply-accumulate, interpolation (45_fuzzy_minmax_mac_tbl.md) -/

/-- MEM: the grade of membership of A in the trapezoid at X, in integers, stored at Y; X advances by 4 and Y by 1, A
is kept, the flags H, N, Z, V, C are undefined (R411). -/
def Obligations.MemStoresTheGradeOfMembership : Prop :=
  ∀ s : State, Completes (exec .mem s) fun t =>
    let p1 := (read8 s .operand s.x).toNat
    let p2 := (read8 s .operand (s.x + 1)).toNat
    let s1 := (read8 s .second (s.x + 2)).toNat
    let s2 := (read8 s .second (s.x + 3)).toNat
    let inside := p1 ≤ s.a.toNat ∧ s.a.toNat ≤ p2
    let up := (s.a.toNat - p1) * s1
    let down := (p2 - s.a.toNat) * s2
    ∃ g : Byte, Stored s t s.y g ∧ StoresOnly s t [s.y] ∧
      (¬ inside → g.toNat = 0) ∧
      (inside → s1 ≠ 0 → up ≤ 255 → g.toNat = up) ∧
      (inside → (s1 = 0 ∨ 255 < up) → (s2 = 0 ∨ 255 < down) → g.toNat = 255) ∧
      (inside → (s1 = 0 ∨ 255 < up) → s2 ≠ 0 → down ≤ 255 → g.toNat = down) ∧
      (∃ h n z v c, FlagsHNZVC s t h n z v c) ∧
      OnlyStores { s with x := s.x + 4, y := s.y + 1, ccr := t.ccr } t

/-- WAV, not stopped between passes: with n = B, or 256 for B = 0, Y : D is the sum of the products of the n bytes at
X and at Y, X the sum of the n bytes at Y; Z is 1, H, N, V, C are undefined, memory is as it was (R415). An operand
where there is no memory is some value, one for each pass. wavr goes on with the sums that it pulls from the stack: B
+ 1 more passes, the same results, SP 6 higher (R416). -/
def Obligations.WavAndWavrSumProductsAndWeights : Prop :=
  (∀ s : State, s.budget = none → Completes (exec .wav s) fun t =>
    let n := if s.b = 0 then 256 else s.b.toNat
    t.y.toNat * 65536 + t.d.toNat = sumTo (fun k => wavS s k * wavF s k) n ∧ t.x.toNat = sumTo (wavF s) n ∧
    (∃ h m v c, FlagsHNZVC s t h m true v c) ∧ ReadsSame s t ∧
    t = { s with a := t.a, b := t.b, x := t.x, y := t.y, ccr := t.ccr, tmp1 := t.tmp1, tmp2 := t.tmp2, tmp3 := t.tmp3,
                 progress := .none, free := t.free }) ∧
  (∀ s : State, s.budget = none → Completes (exec .wavr s) fun t =>
    let n := s.b.toNat + 1
    t.y.toNat * 65536 + t.d.toNat = ((read16 s .stack s.sp).toNat * 65536 + (read16 s .stack2 (s.sp + 2)).toNat +
      sumTo (fun k => wavS s k * wavF s k) n) % 2 ^ 32 ∧
    t.x.toNat = ((read16 s .stack3 (s.sp + 4)).toNat + sumTo (wavF s) n) % 65536 ∧ t.sp = s.sp + 6 ∧
    (∃ h m v c, FlagsHNZVC s t h m true v c) ∧ ReadsSame s t ∧
    t = { s with a := t.a, b := t.b, x := t.x, y := t.y, sp := t.sp, ccr := t.ccr, tmp1 := t.tmp1, tmp2 := t.tmp2,
                 tmp3 := t.tmp3, progress := .none, free := t.free })

/-- REV and REVW complete on every state, finished or at an interrupt point; A, X, the flags, the fuzzy outputs (and
for REVW Y) alone change, S, X and I and for REVW C are kept, X has passed one list element for each pass, and the PC
is the next instruction, or the instruction itself if it is not finished (R412, R413, R414). In memory only outputs
change, and none in storage is lowered: a byte of storage or a page register that is not among `outputs` is as before;
with no output address at a page register the page registers are as before, and `outputs` are the bytes at Y plus a
list byte below $FE (REV) or at a list word below $FFFE (REVW) that the passes have read, and those that the execution
resumed here had written before. The free-value counter counts the passes. -/
def Obligations.RuleEvaluationChangesOnlyItsRegistersAndOutputs : Prop :=
  (∀ s : State, Completes (exec .rev s) fun t =>
    (∃ h n z v c, FlagsHNZVC s t h n z v c) ∧
    t.pc = (if t.progress = .none then s.pc else s.pc - 2) ∧ (t.progress = .none ∨ t.progress = .rev) ∧
    (∃ n, t.free = s.free + n ∧ t.x = s.x + BitVec.ofNat 16 n ∧
      (s.earlier = none → OutputsRaised s t n (fun j a => (revByte s j).toNat < 0xFE ∧ a = s.y + BitVec.ofNat 16 (revByte s j).toNat))) ∧
    t = { s with a := t.a, x := t.x, ccr := t.ccr, pc := t.pc, progress := t.progress, outputs := t.outputs,
                 consumed := t.consumed, suspended := (enterRules s).suspended, free := t.free,
                 mem := t.mem, ppage := t.ppage, dpage := t.dpage, epage := t.epage, stale := t.stale, stores := t.stores }) ∧
  (∀ s : State, Completes (exec .revw s) fun t =>
    (∃ h n z v, FlagsHNZVC s t h n z v s.flagC) ∧
    t.pc = (if t.progress = .none then s.pc else s.pc - 2) ∧ (t.progress = .none ∨ t.progress = .revw) ∧
    (∃ n, t.free = s.free + n ∧ t.x = s.x + BitVec.ofNat 16 (2 * n) ∧
      (s.earlier = none → OutputsRaised s t n (fun j a => (revwWord s j).toNat < 0xFFFE ∧ a = revwWord s j))) ∧
    t = { s with a := t.a, x := t.x, y := t.y, ccr := t.ccr, pc := t.pc, progress := t.progress, outputs := t.outputs,
                 consumed := t.consumed, suspended := (enterRules s).suspended, free := t.free, mem := t.mem, ppage := t.ppage, dpage := t.dpage, epage := t.epage, stale := t.stale, stores := t.stores })

/-- REV on one rule: from A = $FF and V = 0, with a list of antecedent offsets, $FE, consequent offsets, $FF that does
not overlap the outputs, and no interrupted execution to resume, A ends as the least antecedent, every output is
raised to it and never lowered, the rest of memory is kept, X points after the list and V is 1 (R412). -/
def Obligations.RevEvaluatesARule : Prop :=
  ∀ (s : State) (as cs : List Byte), AllRam s → StartsAfresh s → s.budget = none → s.flagV = false → s.a = 0xFF →
    (∀ k ∈ as ++ cs, k.toNat < 0xFE) → as.length + cs.length + 2 ≤ 65536 →
    RamHolds s s.x (as ++ [0xFE] ++ cs ++ [0xFF]) →
    (∀ k < as.length + cs.length + 2, ∀ c ∈ cs, s.x + BitVec.ofNat 16 k ≠ s.y + BitVec.ofNat 16 c.toNat) →
    Completes (exec .rev s) fun t =>
      let truth := leastAt s (as.map fun k => s.y + BitVec.ofNat 16 k.toNat)
      t.a.toNat = truth ∧ t.x = s.x + BitVec.ofNat 16 (as.length + cs.length + 2) ∧ t.pc = s.pc ∧ t.progress = .none ∧
      t.flagV = true ∧
      ∀ z : Word, (ramByte t z).toNat =
        if z ∈ cs.map (fun c => s.y + BitVec.ofNat 16 c.toNat) then max (ramByte s z).toNat truth else (ramByte s z).toNat

/-- REVW on one rule: the list holds 16-bit addresses, $FFFE between, $FFFF at the end; with C = 1 the truth value is
weighted by the byte at Y, truth × (weight + 1) / 256, and Y advances; C is kept (R413). -/
def Obligations.RevwEvaluatesAWeightedRule : Prop :=
  ∀ (s : State) (as cs : List Word), AllRam s → StartsAfresh s → s.budget = none → s.flagV = false → s.a = 0xFF →
    (∀ k ∈ as ++ cs, k.toNat < 0xFFFE) → 2 * (as.length + cs.length + 2) ≤ 65536 →
    RamHolds s s.x (bytesOfWords (as ++ [0xFFFE] ++ cs ++ [0xFFFF])) →
    (∀ k < 2 * (as.length + cs.length + 2), ∀ c ∈ cs, s.x + BitVec.ofNat 16 k ≠ c) →
    Completes (exec .revw s) fun t =>
      let least := leastAt s as
      let truth := if s.flagC then least * ((ramByte s s.y).toNat + 1) / 256 else least
      t.a.toNat = truth ∧ t.x = s.x + BitVec.ofNat 16 (2 * (as.length + cs.length + 2)) ∧
      t.y = (if s.flagC then s.y + 1 else s.y) ∧ t.pc = s.pc ∧ t.progress = .none ∧ t.flagV = true ∧ t.flagC = s.flagC ∧
      ∀ z : Word, (ramByte t z).toNat = if z ∈ cs then max (ramByte s z).toNat truth else (ramByte s z).toNat

/-- REV, REVW and WAV are transparent to where they are stopped: stopped after any number of passes and gone on with,
they end in the state that they end in when they are not stopped (R410). Where they may stop, after any pass, is the
model's choice among what the spec's decision D12 allows (log 15). `runRev`, `runRevw` and `runWav` are what a step
does with the instruction in progress, the PC being the next instruction. The same holds across an interrupt, where
the stack, the lists and the outputs are in RAM: a handler that leaves what the interrupt has stacked, and changes no
byte of memory which the rest of the execution reads or writes, returns by RTI to REV or REVW, or to wavr with the
sums of WAV, and that ends in the registers, S, X, I and V (REV and REVW), C (REVW), Z (WAV) and the outputs of the
execution that goes on from the interrupt point uninterrupted (R414, R416, R417). The bytes `K` are those that the
handler may have changed, the stack's among them. -/
def Obligations.StoppedRuleEvaluationResumesTransparently : Prop :=
  (∀ (s t u : State) (n : Nat), s.budget = none → exec .rev { s with budget := some n } = .next t → t.progress = .rev →
    exec .rev s = .next u → u.progress = .none → runRev { t with budget := none, pc := t.pc + 2 } = u) ∧
  (∀ (s t u : State) (n : Nat), s.budget = none → exec .revw { s with budget := some n } = .next t → t.progress = .revw →
    exec .revw s = .next u → u.progress = .none → runRevw { t with budget := none, pc := t.pc + 2 } = u) ∧
  (∀ (s t u : State) (n : Nat), s.budget = none → exec .wav { s with budget := some n } = .next t → t.progress = .wav →
    t.pc = s.pc - 1 ∧ (exec .wav s = .next u → runWav { t with budget := none, pc := t.pc + 1 } = u)) ∧
  (∀ (s h : State) (K : List Word), AllRam s → AllRam h → s.progress ≠ .none → s.budget = none → HandlerReturns s h →
    (∀ a, a ∉ K → ramByte h a = ramByte s a) → (∀ n, ∀ a ∈ passAddresses (afterPasses n s), a ∉ K) →
    Completes (exec .rti h) fun u => u.pc = s.pc ∧
      Completes (exec (reentry s.progress) { u with pc := u.pc + resumeLength s.progress }) fun t =>
        let f := resume { s with pc := s.pc + resumeLength s.progress }
        t.a = f.a ∧ t.b = f.b ∧ t.x = f.x ∧ t.y = f.y ∧ t.sp = f.sp ∧ t.pc = f.pc ∧ t.progress = f.progress ∧
        t.flagS = f.flagS ∧ t.flagX = f.flagX ∧ t.flagI = f.flagI ∧
        (s.progress ≠ .wav → t.flagV = f.flagV ∧ t.suspended = f.suspended) ∧
        (s.progress = .revw → t.flagC = f.flagC) ∧ (s.progress = .wav → t.flagZ = f.flagZ) ∧
        ∀ a, a ∉ K → ramByte t a = ramByte f a)

/-- MAXA, MINA, EMAXD, EMIND put the larger or smaller unsigned number into A or D; MAXM, MINM, EMAXM, EMINM write it
to memory, also when it is there already; the flags are those of accumulator minus memory (R430 to R438). -/
def Obligations.MinimumAndMaximum : Prop :=
  (∀ (s : State) (m : IdxI), let v := read8 s .operand (idxIEa s m)
    (Completes (exec (.maxa m) s) fun t => t.a.toNat = max s.a.toNat v.toNat ∧
      (∀ r, IsDiff s.a v false r → DiffFlags s t s.a v false r) ∧ ReadsSame s t ∧
      t = { idxIUpdate s m with a := t.a, ccr := t.ccr }) ∧
    (Completes (exec (.mina m) s) fun t => t.a.toNat = min s.a.toNat v.toNat ∧
      (∀ r, IsDiff s.a v false r → DiffFlags s t s.a v false r) ∧ ReadsSame s t ∧
      t = { idxIUpdate s m with a := t.a, ccr := t.ccr }) ∧
    (Completes (exec (.maxm m) s) fun t =>
      Stored s t (idxIEa s m) (BitVec.ofNat 8 (max s.a.toNat v.toNat)) ∧ StoresOnly s t [idxIEa s m] ∧
      (∀ r, IsDiff s.a v false r → DiffFlags s t s.a v false r) ∧ OnlyStores { idxIUpdate s m with ccr := t.ccr } t) ∧
    (Completes (exec (.minm m) s) fun t =>
      Stored s t (idxIEa s m) (BitVec.ofNat 8 (min s.a.toNat v.toNat)) ∧ StoresOnly s t [idxIEa s m] ∧
      (∀ r, IsDiff s.a v false r → DiffFlags s t s.a v false r) ∧ OnlyStores { idxIUpdate s m with ccr := t.ccr } t)) ∧
  (∀ (s : State) (m : IdxI), let v := read16 s .operand (idxIEa s m)
    (Completes (exec (.emaxd m) s) fun t => t.d.toNat = max s.d.toNat v.toNat ∧
      (∀ r, IsDiff s.d v false r → DiffFlags s t s.d v false r) ∧ ReadsSame s t ∧
      t = { idxIUpdate s m with a := t.a, b := t.b, ccr := t.ccr }) ∧
    (Completes (exec (.emind m) s) fun t => t.d.toNat = min s.d.toNat v.toNat ∧
      (∀ r, IsDiff s.d v false r → DiffFlags s t s.d v false r) ∧ ReadsSame s t ∧
      t = { idxIUpdate s m with a := t.a, b := t.b, ccr := t.ccr }) ∧
    (Completes (exec (.emaxm m) s) fun t =>
      StoredWord s t (idxIEa s m) (BitVec.ofNat 16 (max s.d.toNat v.toNat)) ∧
      StoresOnly s t [idxIEa s m, idxIEa s m + 1] ∧
      (∀ r, IsDiff s.d v false r → DiffFlags s t s.d v false r) ∧ OnlyStores { idxIUpdate s m with ccr := t.ccr } t) ∧
    (Completes (exec (.eminm m) s) fun t =>
      StoredWord s t (idxIEa s m) (BitVec.ofNat 16 (min s.d.toNat v.toNat)) ∧
      StoresOnly s t [idxIEa s m, idxIEa s m + 1] ∧
      (∀ r, IsDiff s.d v false r → DiffFlags s t s.d v false r) ∧ OnlyStores { idxIUpdate s m with ccr := t.ccr } t))

/-- EMACS: the signed product of the words at X and Y is added to the four bytes at the address, modulo 2^32; N and Z
of the sum, V the signed overflow, C the carry out of bit 15; where no byte of the accumulator reaches a page
register, only those bytes change (R445). -/
def Obligations.EmacsAccumulatesTheSignedProduct : Prop :=
  ∀ (s : State) (addr : Word), Completes (exec (.emacs addr) s) fun t =>
    let acc : BitVec 32 := read16 s .third addr ++ read16 s .fourth (addr + 2)
    let prod : Int := (read16 s .operand s.x).toInt * (read16 s .second s.y).toInt
    let sum : Int := acc.toInt + prod
    ∃ r : BitVec 32, r = BitVec.ofInt 32 sum ∧
      FlagsNZVC s t (decide (2 ^ 31 ≤ r.toNat)) (decide (r.toNat = 0)) (outOfRange 32 sum)
        (decide (65536 ≤ (acc.toNat : Int) % 65536 + prod % 65536)) ∧
      OnlyStores { s with ccr := t.ccr } t ∧
      ((∀ k < 4, ¬ isPageRegister s (addr + BitVec.ofNat 16 k)) →
        StoredBytes s t [addr, addr + 1, addr + 2, addr + 3]
          (bytesOfWords [BitVec.ofNat 16 (r.toNat / 65536), BitVec.ofNat 16 r.toNat]) ∧
        StoresOnly s t [addr, addr + 1, addr + 2, addr + 3])

/-- TBL and ETBL: Y1 + B × (Y2 − Y1) / 256 rounded down, N and Z of the result, V and H kept; on HCS12 C is the first
fraction bit, on M68HC12 it is undefined (R451, R452). The rounding and the width are the spec's decision D13. -/
def Obligations.TableInterpolation : Prop :=
  (∀ (s : State) (m : Idx), Completes (exec (.tbl m) s) fun t =>
    let ea := idxEa s s.pc m
    let y1 : Int := (read8 s .operand ea).toNat
    let y2 : Int := (read8 s .second (ea + 1)).toNat
    let exact := y1 * 256 + s.b.toNat * (y2 - y1)
    (t.a.toNat : Int) = exact / 256 ∧ FlagsNZVC s t (negative t.a) (zero t.a) s.flagV t.flagC ∧
    (s.cfg.variant = .hcs12 → t.flagC = decide (128 ≤ exact % 256)) ∧ ReadsSame s t ∧
    t = { idxUpdate s m with a := t.a, ccr := t.ccr }) ∧
  (∀ (s : State) (m : Idx), Completes (exec (.etbl m) s) fun t =>
    let ea := idxEa s s.pc m
    let y1 : Int := (read16 s .operand ea).toNat
    let y2 : Int := (read16 s .second (ea + 2)).toNat
    let exact := y1 * 256 + s.b.toNat * (y2 - y1)
    (t.d.toNat : Int) = exact / 256 ∧ FlagsNZVC s t (negative t.d) (zero t.d) s.flagV t.flagC ∧
    (s.cfg.variant = .hcs12 → t.flagC = decide (128 ≤ exact % 256)) ∧ ReadsSame s t ∧
    t = { idxUpdate s m with a := t.a, b := t.b, ccr := t.ccr })

/-! ## Branches (46_branch.md) -/

/-- The short and long branches by the table of R461: in the order condition, branch, long branch; a branch that is
taken goes to the next instruction plus the signed offset, one that is not falls through, and nothing else of the
spec's state changes. -/
def Obligations.BranchesFollowTheConditionTable : Prop :=
  ∀ (s : State) (cond : Bool) (short : Byte → Instr) (long : Word → Instr),
    (cond, short, long) ∈ ([
      (true, .bra, .lbra), (false, .brn, .lbrn),
      (!s.flagC, .bcc, .lbcc), (s.flagC, .bcs, .lbcs), (!s.flagC, .bhs, .lbhs), (s.flagC, .blo, .lblo),
      (s.flagZ, .beq, .lbeq), (!s.flagZ, .bne, .lbne), (s.flagN, .bmi, .lbmi), (!s.flagN, .bpl, .lbpl),
      (s.flagV, .bvs, .lbvs), (!s.flagV, .bvc, .lbvc),
      (!s.flagC && !s.flagZ, .bhi, .lbhi), (s.flagC || s.flagZ, .bls, .lbls),
      (s.flagN == s.flagV, .bge, .lbge), (s.flagN != s.flagV, .blt, .lblt),
      (!s.flagZ && s.flagN == s.flagV, .bgt, .lbgt), (s.flagZ || s.flagN != s.flagV, .ble, .lble)] :
        List (Bool × (Byte → Instr) × (Word → Instr))) →
    (∀ rel : Byte, exec (short rel) s =
      .next (if cond then { s with pc := BitVec.ofInt 16 (s.pc.toNat + rel.toInt), stale := [] } else s)) ∧
    (∀ rel : Word, exec (long rel) s =
      .next (if cond then { s with pc := BitVec.ofInt 16 (s.pc.toNat + rel.toInt), stale := [] } else s))

/-- After CMPA the branches decide the relation of A to the operand: unsigned BHI, BHS, BLS, BLO, signed BGT, BGE,
BLE, BLT, and BEQ, BNE (R461). -/
def Obligations.BranchesAfterACompareDecideTheRelation : Prop :=
  ∀ (s : State) (o : Src8) (rel : Byte), Completes (exec (.cmpa o) s) fun t =>
    let taken (i : Byte → Instr) (p : Prop) : Prop :=
      (p → exec (i rel) t = .next (jump t (t.pc + rel.signExtend 16))) ∧ (¬ p → exec (i rel) t = .next t)
    taken .bhi ((src8 s o).toNat < s.a.toNat) ∧ taken .bhs ((src8 s o).toNat ≤ s.a.toNat) ∧
    taken .bls (s.a.toNat ≤ (src8 s o).toNat) ∧ taken .blo (s.a.toNat < (src8 s o).toNat) ∧
    taken .bgt ((src8 s o).toInt < s.a.toInt) ∧ taken .bge ((src8 s o).toInt ≤ s.a.toInt) ∧
    taken .ble (s.a.toInt ≤ (src8 s o).toInt) ∧ taken .blt (s.a.toInt < (src8 s o).toInt) ∧
    taken .beq (s.a = src8 s o) ∧ taken .bne (s.a ≠ src8 s o)

/-- BRSET branches if every bit of the mask is 1 in the byte, BRCLR if every bit of the mask is 0 in it; no flag
changes, memory is as it was (R501, R502). -/
def Obligations.BitConditionBranchesTestTheMaskedBits : Prop :=
  ∀ (s : State) (m : BitEa) (mask rel : Byte),
    let v := read8 s .operand (bitEa s m)
    let taken : State := { bitUpdate s m with pc := BitVec.ofInt 16 (s.pc.toNat + rel.toInt), stale := [] }
    ((∀ k, mask.getLsbD k = true → v.getLsbD k = true) → exec (.brset m mask rel) s = .next taken) ∧
    ((∃ k, mask.getLsbD k = true ∧ v.getLsbD k = false) → exec (.brset m mask rel) s = .next (bitUpdate s m)) ∧
    ((∀ k, mask.getLsbD k = true → v.getLsbD k = false) → exec (.brclr m mask rel) s = .next taken) ∧
    ((∃ k, mask.getLsbD k = true ∧ v.getLsbD k = true) → exec (.brclr m mask rel) s = .next (bitUpdate s m))

/-- The loop primitives: the counter is decremented (DBEQ, DBNE), incremented (IBEQ, IBNE) or left (TBEQ, TBNE),
modulo its width, and the new value is tested; a taken branch adds the signed 9-bit offset to the address of the next
instruction; no flag changes (R505 to R511). -/
def Obligations.LoopPrimitivesCountAndBranch : Prop :=
  ∀ (s : State) (r : LoopReg) (rel : BitVec 9) (step : Int) (onZero onNonzero : LoopReg → BitVec 9 → Instr),
    (step, onZero, onNonzero) ∈ ([(-1, .dbeq, .dbne), (0, .tbeq, .tbne), (1, .ibeq, .ibne)] :
      List (Int × (LoopReg → BitVec 9 → Instr) × (LoopReg → BitVec 9 → Instr))) →
    ∃ counted : State,
      (match r with
        | .a => counted = { s with a := BitVec.ofInt 8 (s.a.toNat + step) }
        | .b => counted = { s with b := BitVec.ofInt 8 (s.b.toNat + step) }
        | .d => counted = { s with a := counted.a, b := counted.b } ∧
            (counted.a.toNat * 256 + counted.b.toNat : Int) = (s.a.toNat * 256 + s.b.toNat + step) % 65536
        | .x => counted = { s with x := BitVec.ofInt 16 (s.x.toNat + step) }
        | .y => counted = { s with y := BitVec.ofInt 16 (s.y.toNat + step) }
        | .sp => counted = { s with sp := BitVec.ofInt 16 (s.sp.toNat + step) }) ∧
      let isZero : Prop := match r with
        | .a => counted.a.toNat = 0
        | .b => counted.b.toNat = 0
        | .d => counted.a.toNat = 0 ∧ counted.b.toNat = 0
        | .x => counted.x.toNat = 0
        | .y => counted.y.toNat = 0
        | .sp => counted.sp.toNat = 0
      let taken : State := { counted with pc := BitVec.ofInt 16 (s.pc.toNat + rel.toInt), stale := [] }
      (isZero → exec (onZero r rel) s = .next taken ∧ exec (onNonzero r rel) s = .next counted) ∧
      (¬ isZero → exec (onZero r rel) s = .next counted ∧ exec (onNonzero r rel) s = .next taken)

/-! ## Jumps, subroutines, exceptions (47_jump_sub_int.md) -/

/-- JMP goes to the effective address; BSR and JSR push the address of the next instruction, high byte at the lower
address, and go to the target; RTS pulls it (R520 to R525). That the target is formed before the push is the spec's
decision D15 (log 18). -/
def Obligations.SubroutineCallsPushTheReturnAddress : Prop :=
  (∀ (s : State) (m : Mem2), exec (.jmp m) s = .next { mem2Update s m with pc := mem2Ea s m, stale := [] }) ∧
  (∀ (s : State) (rel : Byte), Completes (exec (.bsr rel) s) fun t =>
    StoredWord s t (s.sp - 2) s.pc ∧ StoresOnly s t [s.sp - 2, s.sp - 1] ∧
    OnlyStores { s with sp := s.sp - 2, pc := BitVec.ofInt 16 (s.pc.toNat + rel.toInt) } t ∧ t.stale = []) ∧
  (∀ (s : State) (m : Mem3), Completes (exec (.jsr m) s) fun t =>
    let p := (mem3Update s m).sp
    StoredWord s t (p - 2) s.pc ∧ StoresOnly s t [p - 2, p - 1] ∧
    OnlyStores { mem3Update s m with sp := p - 2, pc := mem3Ea s m } t ∧ t.stale = []) ∧
  (∀ s : State, exec .rts s = .next { s with sp := s.sp + 2, pc := read16 s .stack s.sp, stale := [] })

/-- CALL writes the new page and pushes the return address and then the old page; RTC pulls the page and then the
return address (R524, R526). The target and the page are those of the instruction, or of the indirect forms the word
at the pointer and the byte after it. With no PPAGE register the pushed byte is undefined and the pulled one is
dropped (10_state.md R37). That PPAGE keeps the page modulo 2 to its width is the spec's decision D6 (log 9); the
order of target, write of PPAGE and pushes is its D15 and C31 (log 18). -/
def Obligations.CallAndRtcKeepThePage : Prop :=
  (∀ (s : State) (a : Word) (pg : Byte) (m : IdxX), callTarget s (.ext a pg) = a ∧ callPage s (.ext a pg) = pg ∧
    callUpdate s (.ext a pg) = s ∧ callTarget s (.direct m pg) = idxXEa s m ∧ callPage s (.direct m pg) = pg ∧
    callUpdate s (.direct m pg) = idxXUpdate s m) ∧
  (∀ (s : State) (r : IReg) (n : Word),
    let p := BitVec.ofNat 16 ((baseValue s s.pc r).toNat + n.toNat)
    let q := BitVec.ofNat 16 ((baseValue s s.pc r).toNat + s.a.toNat * 256 + s.b.toNat)
    callTarget s (.ind16 r n) = read16 s .pointer p ∧ callPage s (.ind16 r n) = read8 s .operand (p + 2) ∧
    callUpdate s (.ind16 r n) = s ∧ callTarget s (.indD r) = read16 s .pointer q ∧
    callPage s (.indD r) = read8 s .operand (q + 2) ∧ callUpdate s (.indD r) = s) ∧
  (∀ (s : State) (dest : CallDest), Completes (exec (.call dest) s) fun t =>
    let u := callUpdate s dest
    let page := if s.cfg.ppageBits = 0 then s.ppage else BitVec.ofNat 8 ((callPage s dest).toNat % 2 ^ s.cfg.ppageBits)
    let v : State := { u with ppage := page }
    t.sp = u.sp - 3 ∧ t.pc = callTarget s dest ∧
    t = { u with sp := t.sp, pc := t.pc, mem := t.mem, ppage := t.ppage, dpage := t.dpage, epage := t.epage, stale := [], stores := t.stores } ∧
    ((∀ k < 3, ¬ isPageRegister v (u.sp - 3 + BitVec.ofNat 16 k)) →
      t.ppage = page ∧ StoresOnly v t [u.sp - 3, u.sp - 2, u.sp - 1] ∧
      ∃ old : Byte, (s.cfg.ppageBits ≠ 0 → s.earlier = none → old = s.ppage) ∧
        StoredBytes v t [u.sp - 3, u.sp - 2, u.sp - 1] (old :: bytesOfWords [s.pc]))) ∧
  (∀ s : State, Completes (exec .rtc s) fun t =>
    t.ppage = (if s.cfg.ppageBits = 0 then s.ppage
      else BitVec.ofNat 8 ((read8 s .stack s.sp).toNat % 2 ^ s.cfg.ppageBits)) ∧
    t = { s with sp := s.sp + 3, pc := read16 s .stack2 (s.sp + 1), stale := [], ppage := t.ppage, stores := t.stores })

/-- SWI and TRAP take their exceptions through $FFF6 and $FFF8 with the address of the next instruction as return
address, whatever the masks are: the vector is read, the frame pushed, I set, X kept, TMP1 to TMP3 not preserved
(R535, R536, 60_exceptions.md R670, R680, R681). RTI reads the frame back, CCR, B, A, X, Y and PC from the lowest
address up, X protected, and leaves SP 9 higher (R530). RTI right after SWI or an opcode trap gives back every
register, SP and the CCR among them, and the PC of the next instruction, where the stack is in RAM; TMP1 to TMP3 are
not preserved. -/
def Obligations.ExceptionsAreTakenAndReturnedFrom : Prop :=
  ((∀ s : State, (Completes (exec .swi s) fun t => Entered s t 0xFFF6 s.pc false) ∧
    ∀ tn : Byte, Completes (exec (.trap tn) s) fun t => Entered s t 0xFFF8 s.pc false) ∧
  (∀ s : State, Completes (exec .rti s) fun t =>
    LoadsCcr s t (read8 s .stack s.sp) ∧ ReadsSame s t ∧
    t = { s with ccr := t.ccr, b := read8 s .stack2 (s.sp + 1), a := read8 s .stack2 (s.sp + 2),
                 x := read16 s .stack3 (s.sp + 3), y := read16 s .stack5 (s.sp + 5),
                 pc := read16 s .stack4 (s.sp + 7), sp := s.sp + 9, stale := [] })) ∧
  ∀ (s t u : State) (i : Instr), AllRam s → (i = .swi ∨ ∃ tn, i = .trap tn) → exec i s = .next t → exec .rti t = .next u →
    u = { s with mem := u.mem, stale := [], stores := u.stores, tmp1 := u.tmp1, tmp2 := u.tmp2, tmp3 := u.tmp3 } ∧
    ∀ z : Word, (∀ a ∈ frameAddresses (s.sp - 9), z ≠ a) → ramByte u z = ramByte s z

/-! ## Stack (48_index_stack_lea.md) -/

/-- The pushes decrement SP and then write at it, a word high byte first; the pulls read at SP and then increment it;
no flag changes, but PULC loads the CCR (R575 to R587). -/
def Obligations.PushesAndPullsMoveTheStackPointer : Prop :=
  (∀ (s : State) (v : Byte) (i : Instr), (v, i) ∈ [(s.a, Instr.psha), (s.b, Instr.pshb), (s.ccr, Instr.pshc)] →
    Completes (exec i s) fun t => Stored s t (s.sp - 1) v ∧ StoresOnly s t [s.sp - 1] ∧
      OnlyStores { s with sp := s.sp - 1 } t) ∧
  (∀ (s : State) (v : Word) (i : Instr), (v, i) ∈ [(s.d, Instr.pshd), (s.x, Instr.pshx), (s.y, Instr.pshy)] →
    Completes (exec i s) fun t => StoredWord s t (s.sp - 2) v ∧ StoresOnly s t [s.sp - 2, s.sp - 1] ∧
      OnlyStores { s with sp := s.sp - 2 } t) ∧
  (∀ s : State, exec .pula s = .next { s with sp := s.sp + 1, a := read8 s .stack s.sp }) ∧
  (∀ s : State, exec .pulb s = .next { s with sp := s.sp + 1, b := read8 s .stack s.sp }) ∧
  (∀ s : State, Completes (exec .pulc s) fun t =>
    LoadsCcr s t (read8 s .stack s.sp) ∧ t = { s with sp := s.sp + 1, ccr := t.ccr }) ∧
  (∀ s : State, Completes (exec .puld s) fun t => t.a = read8 s .stack s.sp ∧ t.b = read8 s .stack (s.sp + 1) ∧
    t = { s with sp := s.sp + 2, a := t.a, b := t.b }) ∧
  (∀ s : State, exec .pulx s = .next { s with sp := s.sp + 2, x := read16 s .stack s.sp }) ∧
  (∀ s : State, exec .puly s = .next { s with sp := s.sp + 2, y := read16 s .stack s.sp })

/-! ## Condition codes, NOP, STOP, WAI, BGND (49_ccr_stop_misc.md) -/

/-- ANDCC clears the bits that are 0 in its mask, ORCC sets the bits that are 1 in it but X; CLC, CLI, CLV, SEC, SEI,
SEV change their one bit; nothing else changes (R611 to R618). -/
def Obligations.CcrInstructionsChangeTheirBits : Prop :=
  (∀ (s : State) (m : Byte), Completes (exec (.andcc m) s) fun t =>
    (∀ k, t.ccr.getLsbD k = (s.ccr.getLsbD k && m.getLsbD k)) ∧ t = { s with ccr := t.ccr }) ∧
  (∀ (s : State) (m : Byte), Completes (exec (.orcc m) s) fun t =>
    (∀ k, t.ccr.getLsbD k = (s.ccr.getLsbD k || (m.getLsbD k && decide (k ≠ 6)))) ∧ t = { s with ccr := t.ccr }) ∧
  (∀ (s : State) (i : Instr) (bit : Nat) (v : Bool), (i, bit, v) ∈
      [(Instr.clc, 0, false), (.clv, 1, false), (.cli, 4, false), (.sec, 0, true), (.sev, 1, true), (.sei, 4, true)] →
    Completes (exec i s) fun t =>
      t.ccr.getLsbD bit = v ∧ (∀ k, k ≠ bit → t.ccr.getLsbD k = s.ccr.getLsbD k) ∧ t = { s with ccr := t.ccr })

/-- NOP changes nothing. STOP with S = 1 changes nothing, with S = 0 it stacks the frame and stops; WAI stacks the
frame and waits; the return address is the next instruction and the CCR is as it was (R620, R625, R630). BGND: TMP2 is
the address of the opcode, or the next instruction if the byte that is then read at the opcode's address is $00, as it
is where storage holds the opcode; the CCR is kept in its holding register; with ENBDM = 0 the program goes on at
TMP2, with ENBDM = 1 BDM is active, BDMACT set and ENTAG cleared, and the PC is the word at $FFF6 of the map with the
BDM ROM, which the source does not give; nothing is stacked (R635, 60_exceptions.md R700, R701, R704). That ENTAG is
bit 5 is general knowledge (log 26, PRESUMED); what the ROM holds is free (log 21). -/
def Obligations.NopStopWaiAndBgnd : Prop :=
  ((∀ s : State, exec .nop s = .next s) ∧
  (∀ s : State, s.flagS = true → exec .stop s = .next s) ∧
  (∀ s : State, s.flagS = false → Completes (exec .stop s) fun t =>
    FramePushed s t s.pc ∧ OnlyStores { s with sp := s.sp - 9, run := .stopped } t) ∧
  (∀ s : State, Completes (exec .wai s) fun t =>
    FramePushed s t s.pc ∧ OnlyStores { s with sp := s.sp - 9, run := .waiting } t)) ∧
  (∀ s : State, Completes (exec .bgnd s) fun t =>
    t = { s with tmp2 := t.tmp2, pc := t.pc, run := t.run, bdm := t.bdm, stale := [] } ∧
    t.tmp2 = (if read8 s .bgnd (s.pc - 1) = 0 then s.pc else s.pc - 1) ∧
    (s.earlier = none → byteAt s (s.pc - 1) = some 0 → t.tmp2 = s.pc) ∧
    t.bdm = { s.bdm with ccr := s.ccr, request := false, status := t.bdm.status } ∧
    (s.bdm.status.getLsbD 7 = false → t.pc = t.tmp2 ∧ t.run = s.run ∧ t.bdm.status = s.bdm.status) ∧
    (s.bdm.status.getLsbD 7 = true → t.pc = read16InMap s .vector 0xFFF6 ∧ t.run = .bdmActive ∧ bdmActiveBit t = true ∧ tagEnableBit t = false ∧
      ∀ k, k ≠ 5 → k ≠ 6 → t.bdm.status.getLsbD k = s.bdm.status.getLsbD k))

/-- In active BDM the firmware commands read and write D, X, Y, SP, the resume address and the word at X + 2; GO,
TRACE1 and TAGGO leave BDM at that address with the CCR of the holding register under the X-bit rule, TRACE1 with
TRACE set, TAGGO with ENTAG set; elsewhere a firmware command is refused (60_exceptions.md R704, R706). A memory read
puts the byte on the half of the shift register that the address's parity says and changes no memory, a write stores
the byte of that half, a word command at an odd address is refused (R705, U27); with BDM in the map STATUS and the CCR
register are reached, of STATUS ENBDM alone is written. In stop mode no command has an effect (R700). BACKGROUND, a
forced breakpoint and a BDM tag, or a pin tag with ENTAG = 1, enter BDM before the next instruction, the address of
which is TMP2, one more if a BGND opcode stands there; an SWI tag takes the SWI exception, stacking the address of the
opcode plus 1; a pin tag with ENTAG = 0 does nothing (R716 to R719). The end of a TRACE1 clears TRACE and enters BDM.
Choices: the bits and SDV (log 26, PRESUMED in part), refusals, latching and memory commands with ENBDM = 0 too (log
27), requests and forced breakpoints before interrupts and tags after them (logs 28, 39), with ENBDM = 0 a request
dropped (log 28), GO with the temporaries free (D19, log 21), the end of TRACE1 (log 35). -/
def Obligations.BdmCommands : Prop :=
  ((∀ (s : State) (addr data : Word), s.run = .bdmActive →
    (∀ op ∈ [(0x08 : Byte), 0x10, 0x18], ∃ t, bdmCommand s op addr data = .ok t ∧ t.run = .running ∧ t.pc = s.tmp2 ∧
      bdmActiveBit t = false ∧ t.bdm.status.getLsbD 7 = s.bdm.status.getLsbD 7 ∧ LoadsCcr s t s.bdm.ccr ∧
      t.bdm.tracing = (s.bdm.tracing || decide (op = 0x10)) ∧
      t.bdm.status.getLsbD 3 = (s.bdm.status.getLsbD 3 || decide (op = 0x10)) ∧
      tagEnableBit t = (tagEnableBit s || decide (op = 0x18)) ∧
      t = { s with ccr := t.ccr, pc := t.pc, run := t.run, bdm := t.bdm, stale := [], tmp1 := t.tmp1, tmp2 := t.tmp2,
                   tmp3 := t.tmp3 }) ∧
    (∃ t, bdmCommand s 0x43 addr data = .ok t ∧ t = { s with tmp2 := data, bdm := t.bdm }) ∧
    (∃ t, bdmCommand s 0x44 addr data = .ok t ∧ t.d = data ∧ t = { s with a := t.a, b := t.b, bdm := t.bdm }) ∧
    (∃ t, bdmCommand s 0x45 addr data = .ok t ∧ t = { s with x := data, bdm := t.bdm }) ∧
    (∃ t, bdmCommand s 0x46 addr data = .ok t ∧ t = { s with y := data, bdm := t.bdm }) ∧
    (∃ t, bdmCommand s 0x47 addr data = .ok t ∧ t = { s with sp := data, bdm := t.bdm }) ∧
    (∀ op v, (op, v) ∈ [((0x63 : Byte), s.tmp2), (0x64, s.d), (0x65, s.x), (0x66, s.y), (0x67, s.sp)] →
      ∃ t, bdmCommand s op addr data = .ok t ∧
        t = { s with bdm := { s.bdm with instr := op, shift := v, status := t.bdm.status } } ∧
        ∀ k, t.bdm.status.getLsbD k = (s.bdm.status.getLsbD k || decide (k = 4))) ∧
    ((s.x + 2).toNat < 0xFEFF →
      (∃ t, bdmCommand s 0x62 addr data = .ok t ∧ t = { s with x := s.x + 2, bdm := t.bdm } ∧
        t.bdm.shift = read16 s .host (s.x + 2)) ∧
      (∃ t, bdmCommand s 0x42 addr data = .ok t ∧ OnlyStores { s with x := s.x + 2, bdm := t.bdm } t ∧
        StoredWord s t (s.x + 2) data ∧ StoresOnly s t [s.x + 2, s.x + 3]))) ∧
  (∀ (s : State) (op : Byte) (addr data : Word), s.run = .running ∨ s.run = .waiting → isFirmwareCommand op = true →
    bdmCommand s op addr data = .error .bdmNotActive)) ∧
  (∀ (s : State) (addr data : Word), s.run ≠ .stopped →
    (∀ op, op = 0xE0 ∨ op = 0xE4 ∧ addr.toNat < 0xFF00 → ∃ t, bdmCommand s op addr data = .ok t ∧
      t = { s with bdm := t.bdm } ∧
      (addr.toNat % 2 = 0 → t.bdm.shift.toNat / 256 = (read8 s .host addr).toNat) ∧
      (addr.toNat % 2 = 1 → t.bdm.shift.toNat % 256 = (read8 s .host addr).toNat)) ∧
    (∀ op, op = 0xC0 ∨ op = 0xC4 ∧ addr.toNat < 0xFF00 → ∃ t, bdmCommand s op addr data = .ok t ∧
      Stored s t addr (BitVec.ofNat 8 (if addr.toNat % 2 = 0 then data.toNat / 256 else data.toNat)) ∧
      StoresOnly s t [addr] ∧ OnlyStores { s with bdm := t.bdm } t) ∧
    (addr.toNat % 2 = 0 →
      (∀ op, op = 0xE8 ∨ op = 0xEC ∧ addr.toNat < 0xFF00 → ∃ t, bdmCommand s op addr data = .ok t ∧
        t = { s with bdm := t.bdm } ∧ t.bdm.shift = read16 s .host addr) ∧
      (∀ op, op = 0xC8 ∨ op = 0xCC ∧ addr.toNat < 0xFF00 → ∃ t, bdmCommand s op addr data = .ok t ∧
        StoredWord s t addr data ∧ StoresOnly s t [addr, addr + 1] ∧ OnlyStores { s with bdm := t.bdm } t)) ∧
    (addr.toNat % 2 = 1 → ∀ op ∈ [(0xE8 : Byte), 0xEC, 0xC8, 0xCC], bdmCommand s op addr data = .error .misalignedBdmWord) ∧
    (∃ t, bdmCommand s 0xE4 0xFF01 data = .ok t ∧ t = { s with bdm := t.bdm } ∧
      ∀ k < 8, t.bdm.shift.getLsbD k = (s.bdm.status.getLsbD k && decide (k ≠ 4))) ∧
    (∃ t, bdmCommand s 0xE4 0xFF06 data = .ok t ∧ t = { s with bdm := t.bdm } ∧
      t.bdm.shift.toNat / 256 = s.bdm.ccr.toNat) ∧
    (∃ t, bdmCommand s 0xC4 0xFF01 data = .ok t ∧ t = { s with bdm := t.bdm } ∧
      t.bdm.status.getLsbD 7 = data.getLsbD 7 ∧
      ∀ k, k ≠ 7 → k ≠ 4 → t.bdm.status.getLsbD k = s.bdm.status.getLsbD k) ∧
    (∃ t, bdmCommand s 0xC4 0xFF06 data = .ok t ∧ t = { s with bdm := t.bdm } ∧ t.bdm.ccr.toNat = data.toNat / 256) ∧
    (∃ t, bdmCommand s 0x90 addr data = .ok t ∧ t = { s with bdm := t.bdm } ∧
      (s.run ≠ .bdmActive → t.bdm.request = true) ∧ (s.run = .bdmActive → t.bdm.request = s.bdm.request)) ∧
    ∀ (q : State) (op : Byte), q.run = .stopped → bdmCommand q op addr data = .ok q) ∧
  (∀ (s : State) (now : List Event) (later : List (List Event)), s.schedule = now :: later → s.run = .running →
    s.progress = .none → s.bdm.tracing = false →
    (now = [] ∧ s.bdm.request = true ∨ now = [.forceBdm] ∨
      s.bdm.request = false ∧ recognised s = none ∧ (now = [.tag .bdm] ∨ now = [.tag .pin] ∧ tagEnableBit s = true) →
      Completes (step s) fun t =>
        t.tmp2 = (if read8 s .bgnd s.pc = 0 then s.pc + 1 else s.pc) ∧
        t.bdm = { s.bdm with ccr := s.ccr, request := false, status := t.bdm.status } ∧
        (s.bdm.status.getLsbD 7 = true → t.run = .bdmActive ∧ bdmActiveBit t = true ∧ tagEnableBit t = false) ∧
        (s.bdm.status.getLsbD 7 = false → t.run = .running ∧ t.pc = t.tmp2 ∧ t.bdm.status = s.bdm.status) ∧
        t = { s with schedule := later, tmp2 := t.tmp2, pc := t.pc, run := t.run, bdm := t.bdm, stale := [],
                     budget := none, stores := [], earlier := none, free := s.free + 1 }) ∧
    (now = [.tag .swi] → s.bdm.request = false → recognised s = none →
      ∃ t, step s = .next { t with iDelay := false, budget := none, stores := [], earlier := none, free := t.free + 1 } ∧
        Entered { s with schedule := later } t 0xFFF6 (s.pc + 1) false)) ∧
  (∀ (s : State) (later : List (List Event)), s.schedule = [.tag .pin] :: later → tagEnableBit s = false →
    step s = step { s with schedule := [] :: later }) ∧
  (∀ t : State, (t.bdm.tracing = false ∨ t.progress ≠ .none ∨ t.run = .waiting ∨ t.run = .stopped → endTrace t = t) ∧
    (t.bdm.tracing = true → t.progress = .none → t.run = .running → t.bdm.status.getLsbD 7 = true →
      let u := endTrace t
      u.run = .bdmActive ∧ bdmActiveBit u = true ∧ u.bdm.tracing = false ∧ u.bdm.status.getLsbD 3 = false ∧
      u.bdm.ccr = t.ccr ∧ u.tmp2 = (if read8 t .bgnd t.pc = 0 then t.pc + 1 else t.pc) ∧
      u = { t with tmp2 := u.tmp2, pc := u.pc, run := u.run, bdm := u.bdm, stale := [] }))

/-- A BDM access, or a reset, between two bus accesses of an instruction, on INC of a byte of storage
(60_exceptions.md R690, R705, 20_memory.md R68, R70, R81). A byte that the host writes before the read is incremented;
between the read and the store it is lost; after the store it stays. A byte that the host reads is the old one until
the store is made. A reset that comes before the store leaves the old byte, one that comes after it the new (D18). The
model's choices: the order of the accesses and what a cut can name (log 38). -/
def Obligations.AccessesComeBetweenTwoAccessesOfAnInstruction : Prop :=
  ∀ (s : State) (cut : Cut) (src : ResetSource) (a data : Word) (k : Nat) (e : Event) (later : List (List Event)),
    s.schedule = [e] :: later → s.run = .running → s.bdm.request = false → s.bdm.tracing = false → s.progress = .none →
    s.earlier = none → interruptHere s = none → fetchInstr s = .ok (.inc (.ext a), 3) → fetchStale s 3 = false →
    locate s a = .cell k true →
    let old := memGet s.mem k
    let new : Byte := BitVec.ofNat 8 (if a.toNat % 2 = 0 then data.toNat / 256 else data.toNat)
    (e = .commandWithin cut ⟨0xC0, a, data⟩ → Completes (step s) fun t => t.pc = s.pc + 3 ∧
      (cut.stores = 0 → cut.reads ≤ accessRank .operand → byteAt t a = some (new + 1)) ∧
      (cut.stores = 0 → accessRank .operand < cut.reads → byteAt t a = some (old + 1)) ∧
      (0 < cut.stores → byteAt t a = some new)) ∧
    (e = .commandWithin cut ⟨0xE0, a, data⟩ → Completes (step s) fun t => t.pc = s.pc + 3 ∧
      byteAt t a = some (old + 1) ∧
      (if a.toNat % 2 = 0 then t.bdm.shift.toNat / 256 else t.bdm.shift.toNat % 256) =
        (if cut.stores = 0 then old else old + 1).toNat) ∧
    (e = .resetWithin cut.stores src → Completes (step s) fun t =>
      memGet t.mem k = if cut.stores = 0 then old else old + 1)

/-- The encodings of 30_encoding.md R135 but the last of its list are refused: the spec gives them no effect and no
trap (U14; refusing them is the spec's treatment, log 30). They are: an indirect postbyte of BSET, BCLR, BRSET, BRCLR,
LEAY, LEAX, LEAS; a postbyte of MOVB, MOVW, TBL or ETBL of the group $E0 to $FF that is no accumulator offset, at the
first or, after a legal first, at the second place; a loop postbyte with bits 7 and 6 set or with the register code
010 or 011. The $B7 postbytes that name TMP2 or TMP3 are not among them: those run with a free value (log 29). -/
def Obligations.UndefinedEncodingsAreRefused : Prop :=
  (∀ (e : UndefEnc) (s : State), exec (.undefined e) s = .refused .undefinedEncoding) ∧
  (∀ (e : UndefEnc) (bs rest : List Byte),
    let indirect (xb : Byte) : Prop := 224 ≤ xb.toNat ∧ (xb.toNat % 8 = 3 ∨ xb.toNat % 8 = 7)
    let long (xb : Byte) : Prop := 224 ≤ xb.toNat ∧ (xb.toNat % 8 < 4 ∨ xb.toNat % 8 = 7)
    decode bs = .ok (.undefined e, rest) ↔ match e with
      | .page1 op xb => op ∈ [(0x0C : Byte), 0x0D, 0x0E, 0x0F, 0x19, 0x1A, 0x1B] ∧ indirect xb ∧ bs = op :: xb :: rest
      | .page2 op xb => op ∈ [(0x00 : Byte), 0x01, 0x02, 0x05, 0x08, 0x09, 0x0A, 0x0D, 0x3D, 0x3F] ∧ long xb ∧
          bs = 0x18 :: op :: xb :: rest
      | .second op xb1 xb2 => (op = 0x02 ∨ op = 0x0A) ∧ ¬ long xb1 ∧ long xb2 ∧ bs = 0x18 :: op :: xb1 :: xb2 :: rest
      | .loop lb => (192 ≤ lb.toNat ∨ lb.toNat % 8 = 2 ∨ lb.toNat % 8 = 3) ∧ bs = 0x04 :: lb :: rest)

/-- LSL, LSLA, LSLB, LSLD are assembled as ASL, ASLA, ASLB, ASLD and do the same (44_shift_rotate.md R372); and so
each of the 27 translated mnemonics of 30_encoding.md R141 has the bytes and the effect of the instruction that it
assembles to. That R143's rows mean so for all 27 is deduced (log 6). -/
def Obligations.TranslatedMnemonicsRunAsTheirCore : Prop :=
  (∀ (m : Mem2) (s : State), encode (.lsl m) = encode (.asl m) ∧ exec (.lsl m) s = exec (.asl m) s) ∧
  (∀ (i j : Instr) (s : State), (i, j) ∈ [(Instr.lsla, Instr.asla), (.lslb, .aslb), (.lsld, .asld)] →
    encode i = encode j ∧ exec i s = exec j s) ∧
  (∀ (i : Instr) (s : State), encode i = encode i.canon ∧ exec i s = exec i.canon s)
end

