-- ==== Sys2Proof/Laws/State.lean ====
section
/-! SUPPORT. One lemma for each field and each update of a register or of the flags, so that no proof unfolds a record
update. -/

namespace Sys2Proof.Machine

/-! ## setA -/

@[simp] theorem State.setA_a (s : State) (v : Byte) : (s.setA v).a = v := rfl
@[simp] theorem State.setA_b (s : State) (v : Byte) : (s.setA v).b = s.b := rfl
@[simp] theorem State.setA_x (s : State) (v : Byte) : (s.setA v).x = s.x := rfl
@[simp] theorem State.setA_y (s : State) (v : Byte) : (s.setA v).y = s.y := rfl
@[simp] theorem State.setA_sp (s : State) (v : Byte) : (s.setA v).sp = s.sp := rfl
@[simp] theorem State.setA_pc (s : State) (v : Byte) : (s.setA v).pc = s.pc := rfl
@[simp] theorem State.setA_ccr (s : State) (v : Byte) : (s.setA v).ccr = s.ccr := rfl
@[simp] theorem State.setA_tmp1 (s : State) (v : Byte) : (s.setA v).tmp1 = s.tmp1 := rfl
@[simp] theorem State.setA_tmp2 (s : State) (v : Byte) : (s.setA v).tmp2 = s.tmp2 := rfl
@[simp] theorem State.setA_tmp3 (s : State) (v : Byte) : (s.setA v).tmp3 = s.tmp3 := rfl
@[simp] theorem State.setA_ppage (s : State) (v : Byte) : (s.setA v).ppage = s.ppage := rfl
@[simp] theorem State.setA_dpage (s : State) (v : Byte) : (s.setA v).dpage = s.dpage := rfl
@[simp] theorem State.setA_epage (s : State) (v : Byte) : (s.setA v).epage = s.epage := rfl
@[simp] theorem State.setA_windows (s : State) (v : Byte) : (s.setA v).windows = s.windows := rfl
@[simp] theorem State.setA_iDelay (s : State) (v : Byte) : (s.setA v).iDelay = s.iDelay := rfl
@[simp] theorem State.setA_run (s : State) (v : Byte) : (s.setA v).run = s.run := rfl
@[simp] theorem State.setA_progress (s : State) (v : Byte) : (s.setA v).progress = s.progress := rfl
@[simp] theorem State.setA_outputs (s : State) (v : Byte) : (s.setA v).outputs = s.outputs := rfl
@[simp] theorem State.setA_consumed (s : State) (v : Byte) : (s.setA v).consumed = s.consumed := rfl
@[simp] theorem State.setA_suspended (s : State) (v : Byte) : (s.setA v).suspended = s.suspended := rfl
@[simp] theorem State.setA_stale (s : State) (v : Byte) : (s.setA v).stale = s.stale := rfl
@[simp] theorem State.setA_pins (s : State) (v : Byte) : (s.setA v).pins = s.pins := rfl
@[simp] theorem State.setA_bdm (s : State) (v : Byte) : (s.setA v).bdm = s.bdm := rfl
@[simp] theorem State.setA_schedule (s : State) (v : Byte) : (s.setA v).schedule = s.schedule := rfl
@[simp] theorem State.setA_budget (s : State) (v : Byte) : (s.setA v).budget = s.budget := rfl
@[simp] theorem State.setA_stores (s : State) (v : Byte) : (s.setA v).stores = s.stores := rfl
@[simp] theorem State.setA_earlier (s : State) (v : Byte) : (s.setA v).earlier = s.earlier := rfl
@[simp] theorem State.setA_free (s : State) (v : Byte) : (s.setA v).free = s.free := rfl
@[simp] theorem State.setA_mem (s : State) (v : Byte) : (s.setA v).mem = s.mem := rfl
@[simp] theorem State.setA_cfg (s : State) (v : Byte) : (s.setA v).cfg = s.cfg := rfl

/-! ## setB -/

@[simp] theorem State.setB_a (s : State) (v : Byte) : (s.setB v).a = s.a := rfl
@[simp] theorem State.setB_b (s : State) (v : Byte) : (s.setB v).b = v := rfl
@[simp] theorem State.setB_x (s : State) (v : Byte) : (s.setB v).x = s.x := rfl
@[simp] theorem State.setB_y (s : State) (v : Byte) : (s.setB v).y = s.y := rfl
@[simp] theorem State.setB_sp (s : State) (v : Byte) : (s.setB v).sp = s.sp := rfl
@[simp] theorem State.setB_pc (s : State) (v : Byte) : (s.setB v).pc = s.pc := rfl
@[simp] theorem State.setB_ccr (s : State) (v : Byte) : (s.setB v).ccr = s.ccr := rfl
@[simp] theorem State.setB_tmp1 (s : State) (v : Byte) : (s.setB v).tmp1 = s.tmp1 := rfl
@[simp] theorem State.setB_tmp2 (s : State) (v : Byte) : (s.setB v).tmp2 = s.tmp2 := rfl
@[simp] theorem State.setB_tmp3 (s : State) (v : Byte) : (s.setB v).tmp3 = s.tmp3 := rfl
@[simp] theorem State.setB_ppage (s : State) (v : Byte) : (s.setB v).ppage = s.ppage := rfl
@[simp] theorem State.setB_dpage (s : State) (v : Byte) : (s.setB v).dpage = s.dpage := rfl
@[simp] theorem State.setB_epage (s : State) (v : Byte) : (s.setB v).epage = s.epage := rfl
@[simp] theorem State.setB_windows (s : State) (v : Byte) : (s.setB v).windows = s.windows := rfl
@[simp] theorem State.setB_iDelay (s : State) (v : Byte) : (s.setB v).iDelay = s.iDelay := rfl
@[simp] theorem State.setB_run (s : State) (v : Byte) : (s.setB v).run = s.run := rfl
@[simp] theorem State.setB_progress (s : State) (v : Byte) : (s.setB v).progress = s.progress := rfl
@[simp] theorem State.setB_outputs (s : State) (v : Byte) : (s.setB v).outputs = s.outputs := rfl
@[simp] theorem State.setB_consumed (s : State) (v : Byte) : (s.setB v).consumed = s.consumed := rfl
@[simp] theorem State.setB_suspended (s : State) (v : Byte) : (s.setB v).suspended = s.suspended := rfl
@[simp] theorem State.setB_stale (s : State) (v : Byte) : (s.setB v).stale = s.stale := rfl
@[simp] theorem State.setB_pins (s : State) (v : Byte) : (s.setB v).pins = s.pins := rfl
@[simp] theorem State.setB_bdm (s : State) (v : Byte) : (s.setB v).bdm = s.bdm := rfl
@[simp] theorem State.setB_schedule (s : State) (v : Byte) : (s.setB v).schedule = s.schedule := rfl
@[simp] theorem State.setB_budget (s : State) (v : Byte) : (s.setB v).budget = s.budget := rfl
@[simp] theorem State.setB_stores (s : State) (v : Byte) : (s.setB v).stores = s.stores := rfl
@[simp] theorem State.setB_earlier (s : State) (v : Byte) : (s.setB v).earlier = s.earlier := rfl
@[simp] theorem State.setB_free (s : State) (v : Byte) : (s.setB v).free = s.free := rfl
@[simp] theorem State.setB_mem (s : State) (v : Byte) : (s.setB v).mem = s.mem := rfl
@[simp] theorem State.setB_cfg (s : State) (v : Byte) : (s.setB v).cfg = s.cfg := rfl

/-! ## setD -/

@[simp] theorem State.setD_a (s : State) (v : Word) : (s.setD v).a = hiByte v := rfl
@[simp] theorem State.setD_b (s : State) (v : Word) : (s.setD v).b = loByte v := rfl
@[simp] theorem State.setD_x (s : State) (v : Word) : (s.setD v).x = s.x := rfl
@[simp] theorem State.setD_y (s : State) (v : Word) : (s.setD v).y = s.y := rfl
@[simp] theorem State.setD_sp (s : State) (v : Word) : (s.setD v).sp = s.sp := rfl
@[simp] theorem State.setD_pc (s : State) (v : Word) : (s.setD v).pc = s.pc := rfl
@[simp] theorem State.setD_ccr (s : State) (v : Word) : (s.setD v).ccr = s.ccr := rfl
@[simp] theorem State.setD_tmp1 (s : State) (v : Word) : (s.setD v).tmp1 = s.tmp1 := rfl
@[simp] theorem State.setD_tmp2 (s : State) (v : Word) : (s.setD v).tmp2 = s.tmp2 := rfl
@[simp] theorem State.setD_tmp3 (s : State) (v : Word) : (s.setD v).tmp3 = s.tmp3 := rfl
@[simp] theorem State.setD_ppage (s : State) (v : Word) : (s.setD v).ppage = s.ppage := rfl
@[simp] theorem State.setD_dpage (s : State) (v : Word) : (s.setD v).dpage = s.dpage := rfl
@[simp] theorem State.setD_epage (s : State) (v : Word) : (s.setD v).epage = s.epage := rfl
@[simp] theorem State.setD_windows (s : State) (v : Word) : (s.setD v).windows = s.windows := rfl
@[simp] theorem State.setD_iDelay (s : State) (v : Word) : (s.setD v).iDelay = s.iDelay := rfl
@[simp] theorem State.setD_run (s : State) (v : Word) : (s.setD v).run = s.run := rfl
@[simp] theorem State.setD_progress (s : State) (v : Word) : (s.setD v).progress = s.progress := rfl
@[simp] theorem State.setD_outputs (s : State) (v : Word) : (s.setD v).outputs = s.outputs := rfl
@[simp] theorem State.setD_consumed (s : State) (v : Word) : (s.setD v).consumed = s.consumed := rfl
@[simp] theorem State.setD_suspended (s : State) (v : Word) : (s.setD v).suspended = s.suspended := rfl
@[simp] theorem State.setD_stale (s : State) (v : Word) : (s.setD v).stale = s.stale := rfl
@[simp] theorem State.setD_pins (s : State) (v : Word) : (s.setD v).pins = s.pins := rfl
@[simp] theorem State.setD_bdm (s : State) (v : Word) : (s.setD v).bdm = s.bdm := rfl
@[simp] theorem State.setD_schedule (s : State) (v : Word) : (s.setD v).schedule = s.schedule := rfl
@[simp] theorem State.setD_budget (s : State) (v : Word) : (s.setD v).budget = s.budget := rfl
@[simp] theorem State.setD_stores (s : State) (v : Word) : (s.setD v).stores = s.stores := rfl
@[simp] theorem State.setD_earlier (s : State) (v : Word) : (s.setD v).earlier = s.earlier := rfl
@[simp] theorem State.setD_free (s : State) (v : Word) : (s.setD v).free = s.free := rfl
@[simp] theorem State.setD_mem (s : State) (v : Word) : (s.setD v).mem = s.mem := rfl
@[simp] theorem State.setD_cfg (s : State) (v : Word) : (s.setD v).cfg = s.cfg := rfl

/-! ## setX -/

@[simp] theorem State.setX_a (s : State) (v : Word) : (s.setX v).a = s.a := rfl
@[simp] theorem State.setX_b (s : State) (v : Word) : (s.setX v).b = s.b := rfl
@[simp] theorem State.setX_x (s : State) (v : Word) : (s.setX v).x = v := rfl
@[simp] theorem State.setX_y (s : State) (v : Word) : (s.setX v).y = s.y := rfl
@[simp] theorem State.setX_sp (s : State) (v : Word) : (s.setX v).sp = s.sp := rfl
@[simp] theorem State.setX_pc (s : State) (v : Word) : (s.setX v).pc = s.pc := rfl
@[simp] theorem State.setX_ccr (s : State) (v : Word) : (s.setX v).ccr = s.ccr := rfl
@[simp] theorem State.setX_tmp1 (s : State) (v : Word) : (s.setX v).tmp1 = s.tmp1 := rfl
@[simp] theorem State.setX_tmp2 (s : State) (v : Word) : (s.setX v).tmp2 = s.tmp2 := rfl
@[simp] theorem State.setX_tmp3 (s : State) (v : Word) : (s.setX v).tmp3 = s.tmp3 := rfl
@[simp] theorem State.setX_ppage (s : State) (v : Word) : (s.setX v).ppage = s.ppage := rfl
@[simp] theorem State.setX_dpage (s : State) (v : Word) : (s.setX v).dpage = s.dpage := rfl
@[simp] theorem State.setX_epage (s : State) (v : Word) : (s.setX v).epage = s.epage := rfl
@[simp] theorem State.setX_windows (s : State) (v : Word) : (s.setX v).windows = s.windows := rfl
@[simp] theorem State.setX_iDelay (s : State) (v : Word) : (s.setX v).iDelay = s.iDelay := rfl
@[simp] theorem State.setX_run (s : State) (v : Word) : (s.setX v).run = s.run := rfl
@[simp] theorem State.setX_progress (s : State) (v : Word) : (s.setX v).progress = s.progress := rfl
@[simp] theorem State.setX_outputs (s : State) (v : Word) : (s.setX v).outputs = s.outputs := rfl
@[simp] theorem State.setX_consumed (s : State) (v : Word) : (s.setX v).consumed = s.consumed := rfl
@[simp] theorem State.setX_suspended (s : State) (v : Word) : (s.setX v).suspended = s.suspended := rfl
@[simp] theorem State.setX_stale (s : State) (v : Word) : (s.setX v).stale = s.stale := rfl
@[simp] theorem State.setX_pins (s : State) (v : Word) : (s.setX v).pins = s.pins := rfl
@[simp] theorem State.setX_bdm (s : State) (v : Word) : (s.setX v).bdm = s.bdm := rfl
@[simp] theorem State.setX_schedule (s : State) (v : Word) : (s.setX v).schedule = s.schedule := rfl
@[simp] theorem State.setX_budget (s : State) (v : Word) : (s.setX v).budget = s.budget := rfl
@[simp] theorem State.setX_stores (s : State) (v : Word) : (s.setX v).stores = s.stores := rfl
@[simp] theorem State.setX_earlier (s : State) (v : Word) : (s.setX v).earlier = s.earlier := rfl
@[simp] theorem State.setX_free (s : State) (v : Word) : (s.setX v).free = s.free := rfl
@[simp] theorem State.setX_mem (s : State) (v : Word) : (s.setX v).mem = s.mem := rfl
@[simp] theorem State.setX_cfg (s : State) (v : Word) : (s.setX v).cfg = s.cfg := rfl

/-! ## setY -/

@[simp] theorem State.setY_a (s : State) (v : Word) : (s.setY v).a = s.a := rfl
@[simp] theorem State.setY_b (s : State) (v : Word) : (s.setY v).b = s.b := rfl
@[simp] theorem State.setY_x (s : State) (v : Word) : (s.setY v).x = s.x := rfl
@[simp] theorem State.setY_y (s : State) (v : Word) : (s.setY v).y = v := rfl
@[simp] theorem State.setY_sp (s : State) (v : Word) : (s.setY v).sp = s.sp := rfl
@[simp] theorem State.setY_pc (s : State) (v : Word) : (s.setY v).pc = s.pc := rfl
@[simp] theorem State.setY_ccr (s : State) (v : Word) : (s.setY v).ccr = s.ccr := rfl
@[simp] theorem State.setY_tmp1 (s : State) (v : Word) : (s.setY v).tmp1 = s.tmp1 := rfl
@[simp] theorem State.setY_tmp2 (s : State) (v : Word) : (s.setY v).tmp2 = s.tmp2 := rfl
@[simp] theorem State.setY_tmp3 (s : State) (v : Word) : (s.setY v).tmp3 = s.tmp3 := rfl
@[simp] theorem State.setY_ppage (s : State) (v : Word) : (s.setY v).ppage = s.ppage := rfl
@[simp] theorem State.setY_dpage (s : State) (v : Word) : (s.setY v).dpage = s.dpage := rfl
@[simp] theorem State.setY_epage (s : State) (v : Word) : (s.setY v).epage = s.epage := rfl
@[simp] theorem State.setY_windows (s : State) (v : Word) : (s.setY v).windows = s.windows := rfl
@[simp] theorem State.setY_iDelay (s : State) (v : Word) : (s.setY v).iDelay = s.iDelay := rfl
@[simp] theorem State.setY_run (s : State) (v : Word) : (s.setY v).run = s.run := rfl
@[simp] theorem State.setY_progress (s : State) (v : Word) : (s.setY v).progress = s.progress := rfl
@[simp] theorem State.setY_outputs (s : State) (v : Word) : (s.setY v).outputs = s.outputs := rfl
@[simp] theorem State.setY_consumed (s : State) (v : Word) : (s.setY v).consumed = s.consumed := rfl
@[simp] theorem State.setY_suspended (s : State) (v : Word) : (s.setY v).suspended = s.suspended := rfl
@[simp] theorem State.setY_stale (s : State) (v : Word) : (s.setY v).stale = s.stale := rfl
@[simp] theorem State.setY_pins (s : State) (v : Word) : (s.setY v).pins = s.pins := rfl
@[simp] theorem State.setY_bdm (s : State) (v : Word) : (s.setY v).bdm = s.bdm := rfl
@[simp] theorem State.setY_schedule (s : State) (v : Word) : (s.setY v).schedule = s.schedule := rfl
@[simp] theorem State.setY_budget (s : State) (v : Word) : (s.setY v).budget = s.budget := rfl
@[simp] theorem State.setY_stores (s : State) (v : Word) : (s.setY v).stores = s.stores := rfl
@[simp] theorem State.setY_earlier (s : State) (v : Word) : (s.setY v).earlier = s.earlier := rfl
@[simp] theorem State.setY_free (s : State) (v : Word) : (s.setY v).free = s.free := rfl
@[simp] theorem State.setY_mem (s : State) (v : Word) : (s.setY v).mem = s.mem := rfl
@[simp] theorem State.setY_cfg (s : State) (v : Word) : (s.setY v).cfg = s.cfg := rfl

/-! ## setSp -/

@[simp] theorem State.setSp_a (s : State) (v : Word) : (s.setSp v).a = s.a := rfl
@[simp] theorem State.setSp_b (s : State) (v : Word) : (s.setSp v).b = s.b := rfl
@[simp] theorem State.setSp_x (s : State) (v : Word) : (s.setSp v).x = s.x := rfl
@[simp] theorem State.setSp_y (s : State) (v : Word) : (s.setSp v).y = s.y := rfl
@[simp] theorem State.setSp_sp (s : State) (v : Word) : (s.setSp v).sp = v := rfl
@[simp] theorem State.setSp_pc (s : State) (v : Word) : (s.setSp v).pc = s.pc := rfl
@[simp] theorem State.setSp_ccr (s : State) (v : Word) : (s.setSp v).ccr = s.ccr := rfl
@[simp] theorem State.setSp_tmp1 (s : State) (v : Word) : (s.setSp v).tmp1 = s.tmp1 := rfl
@[simp] theorem State.setSp_tmp2 (s : State) (v : Word) : (s.setSp v).tmp2 = s.tmp2 := rfl
@[simp] theorem State.setSp_tmp3 (s : State) (v : Word) : (s.setSp v).tmp3 = s.tmp3 := rfl
@[simp] theorem State.setSp_ppage (s : State) (v : Word) : (s.setSp v).ppage = s.ppage := rfl
@[simp] theorem State.setSp_dpage (s : State) (v : Word) : (s.setSp v).dpage = s.dpage := rfl
@[simp] theorem State.setSp_epage (s : State) (v : Word) : (s.setSp v).epage = s.epage := rfl
@[simp] theorem State.setSp_windows (s : State) (v : Word) : (s.setSp v).windows = s.windows := rfl
@[simp] theorem State.setSp_iDelay (s : State) (v : Word) : (s.setSp v).iDelay = s.iDelay := rfl
@[simp] theorem State.setSp_run (s : State) (v : Word) : (s.setSp v).run = s.run := rfl
@[simp] theorem State.setSp_progress (s : State) (v : Word) : (s.setSp v).progress = s.progress := rfl
@[simp] theorem State.setSp_outputs (s : State) (v : Word) : (s.setSp v).outputs = s.outputs := rfl
@[simp] theorem State.setSp_consumed (s : State) (v : Word) : (s.setSp v).consumed = s.consumed := rfl
@[simp] theorem State.setSp_suspended (s : State) (v : Word) : (s.setSp v).suspended = s.suspended := rfl
@[simp] theorem State.setSp_stale (s : State) (v : Word) : (s.setSp v).stale = s.stale := rfl
@[simp] theorem State.setSp_pins (s : State) (v : Word) : (s.setSp v).pins = s.pins := rfl
@[simp] theorem State.setSp_bdm (s : State) (v : Word) : (s.setSp v).bdm = s.bdm := rfl
@[simp] theorem State.setSp_schedule (s : State) (v : Word) : (s.setSp v).schedule = s.schedule := rfl
@[simp] theorem State.setSp_budget (s : State) (v : Word) : (s.setSp v).budget = s.budget := rfl
@[simp] theorem State.setSp_stores (s : State) (v : Word) : (s.setSp v).stores = s.stores := rfl
@[simp] theorem State.setSp_earlier (s : State) (v : Word) : (s.setSp v).earlier = s.earlier := rfl
@[simp] theorem State.setSp_free (s : State) (v : Word) : (s.setSp v).free = s.free := rfl
@[simp] theorem State.setSp_mem (s : State) (v : Word) : (s.setSp v).mem = s.mem := rfl
@[simp] theorem State.setSp_cfg (s : State) (v : Word) : (s.setSp v).cfg = s.cfg := rfl

/-! ## setCcr -/

@[simp] theorem State.setCcr_a (s : State) (v : Byte) : (s.setCcr v).a = s.a := rfl
@[simp] theorem State.setCcr_b (s : State) (v : Byte) : (s.setCcr v).b = s.b := rfl
@[simp] theorem State.setCcr_x (s : State) (v : Byte) : (s.setCcr v).x = s.x := rfl
@[simp] theorem State.setCcr_y (s : State) (v : Byte) : (s.setCcr v).y = s.y := rfl
@[simp] theorem State.setCcr_sp (s : State) (v : Byte) : (s.setCcr v).sp = s.sp := rfl
@[simp] theorem State.setCcr_pc (s : State) (v : Byte) : (s.setCcr v).pc = s.pc := rfl
@[simp] theorem State.setCcr_ccr (s : State) (v : Byte) : (s.setCcr v).ccr = v := rfl
@[simp] theorem State.setCcr_tmp1 (s : State) (v : Byte) : (s.setCcr v).tmp1 = s.tmp1 := rfl
@[simp] theorem State.setCcr_tmp2 (s : State) (v : Byte) : (s.setCcr v).tmp2 = s.tmp2 := rfl
@[simp] theorem State.setCcr_tmp3 (s : State) (v : Byte) : (s.setCcr v).tmp3 = s.tmp3 := rfl
@[simp] theorem State.setCcr_ppage (s : State) (v : Byte) : (s.setCcr v).ppage = s.ppage := rfl
@[simp] theorem State.setCcr_dpage (s : State) (v : Byte) : (s.setCcr v).dpage = s.dpage := rfl
@[simp] theorem State.setCcr_epage (s : State) (v : Byte) : (s.setCcr v).epage = s.epage := rfl
@[simp] theorem State.setCcr_windows (s : State) (v : Byte) : (s.setCcr v).windows = s.windows := rfl
@[simp] theorem State.setCcr_iDelay (s : State) (v : Byte) : (s.setCcr v).iDelay = s.iDelay := rfl
@[simp] theorem State.setCcr_run (s : State) (v : Byte) : (s.setCcr v).run = s.run := rfl
@[simp] theorem State.setCcr_progress (s : State) (v : Byte) : (s.setCcr v).progress = s.progress := rfl
@[simp] theorem State.setCcr_outputs (s : State) (v : Byte) : (s.setCcr v).outputs = s.outputs := rfl
@[simp] theorem State.setCcr_consumed (s : State) (v : Byte) : (s.setCcr v).consumed = s.consumed := rfl
@[simp] theorem State.setCcr_suspended (s : State) (v : Byte) : (s.setCcr v).suspended = s.suspended := rfl
@[simp] theorem State.setCcr_stale (s : State) (v : Byte) : (s.setCcr v).stale = s.stale := rfl
@[simp] theorem State.setCcr_pins (s : State) (v : Byte) : (s.setCcr v).pins = s.pins := rfl
@[simp] theorem State.setCcr_bdm (s : State) (v : Byte) : (s.setCcr v).bdm = s.bdm := rfl
@[simp] theorem State.setCcr_schedule (s : State) (v : Byte) : (s.setCcr v).schedule = s.schedule := rfl
@[simp] theorem State.setCcr_budget (s : State) (v : Byte) : (s.setCcr v).budget = s.budget := rfl
@[simp] theorem State.setCcr_stores (s : State) (v : Byte) : (s.setCcr v).stores = s.stores := rfl
@[simp] theorem State.setCcr_earlier (s : State) (v : Byte) : (s.setCcr v).earlier = s.earlier := rfl
@[simp] theorem State.setCcr_free (s : State) (v : Byte) : (s.setCcr v).free = s.free := rfl
@[simp] theorem State.setCcr_mem (s : State) (v : Byte) : (s.setCcr v).mem = s.mem := rfl
@[simp] theorem State.setCcr_cfg (s : State) (v : Byte) : (s.setCcr v).cfg = s.cfg := rfl

/-! ## loadCcr -/

@[simp] theorem State.loadCcr_a (s : State) (v : Byte) : (s.loadCcr v).a = s.a := rfl
@[simp] theorem State.loadCcr_b (s : State) (v : Byte) : (s.loadCcr v).b = s.b := rfl
@[simp] theorem State.loadCcr_x (s : State) (v : Byte) : (s.loadCcr v).x = s.x := rfl
@[simp] theorem State.loadCcr_y (s : State) (v : Byte) : (s.loadCcr v).y = s.y := rfl
@[simp] theorem State.loadCcr_sp (s : State) (v : Byte) : (s.loadCcr v).sp = s.sp := rfl
@[simp] theorem State.loadCcr_pc (s : State) (v : Byte) : (s.loadCcr v).pc = s.pc := rfl
@[simp] theorem State.loadCcr_ccr (s : State) (v : Byte) : (s.loadCcr v).ccr = protectX s.ccr v := rfl
@[simp] theorem State.loadCcr_tmp1 (s : State) (v : Byte) : (s.loadCcr v).tmp1 = s.tmp1 := rfl
@[simp] theorem State.loadCcr_tmp2 (s : State) (v : Byte) : (s.loadCcr v).tmp2 = s.tmp2 := rfl
@[simp] theorem State.loadCcr_tmp3 (s : State) (v : Byte) : (s.loadCcr v).tmp3 = s.tmp3 := rfl
@[simp] theorem State.loadCcr_ppage (s : State) (v : Byte) : (s.loadCcr v).ppage = s.ppage := rfl
@[simp] theorem State.loadCcr_dpage (s : State) (v : Byte) : (s.loadCcr v).dpage = s.dpage := rfl
@[simp] theorem State.loadCcr_epage (s : State) (v : Byte) : (s.loadCcr v).epage = s.epage := rfl
@[simp] theorem State.loadCcr_windows (s : State) (v : Byte) : (s.loadCcr v).windows = s.windows := rfl
@[simp] theorem State.loadCcr_iDelay (s : State) (v : Byte) : (s.loadCcr v).iDelay = s.iDelay := rfl
@[simp] theorem State.loadCcr_run (s : State) (v : Byte) : (s.loadCcr v).run = s.run := rfl
@[simp] theorem State.loadCcr_progress (s : State) (v : Byte) : (s.loadCcr v).progress = s.progress := rfl
@[simp] theorem State.loadCcr_outputs (s : State) (v : Byte) : (s.loadCcr v).outputs = s.outputs := rfl
@[simp] theorem State.loadCcr_consumed (s : State) (v : Byte) : (s.loadCcr v).consumed = s.consumed := rfl
@[simp] theorem State.loadCcr_suspended (s : State) (v : Byte) : (s.loadCcr v).suspended = s.suspended := rfl
@[simp] theorem State.loadCcr_stale (s : State) (v : Byte) : (s.loadCcr v).stale = s.stale := rfl
@[simp] theorem State.loadCcr_pins (s : State) (v : Byte) : (s.loadCcr v).pins = s.pins := rfl
@[simp] theorem State.loadCcr_bdm (s : State) (v : Byte) : (s.loadCcr v).bdm = s.bdm := rfl
@[simp] theorem State.loadCcr_schedule (s : State) (v : Byte) : (s.loadCcr v).schedule = s.schedule := rfl
@[simp] theorem State.loadCcr_budget (s : State) (v : Byte) : (s.loadCcr v).budget = s.budget := rfl
@[simp] theorem State.loadCcr_stores (s : State) (v : Byte) : (s.loadCcr v).stores = s.stores := rfl
@[simp] theorem State.loadCcr_earlier (s : State) (v : Byte) : (s.loadCcr v).earlier = s.earlier := rfl
@[simp] theorem State.loadCcr_free (s : State) (v : Byte) : (s.loadCcr v).free = s.free := rfl
@[simp] theorem State.loadCcr_mem (s : State) (v : Byte) : (s.loadCcr v).mem = s.mem := rfl
@[simp] theorem State.loadCcr_cfg (s : State) (v : Byte) : (s.loadCcr v).cfg = s.cfg := rfl

/-! ## nzv0 -/

@[simp] theorem State.nzv0_a (s : State) {w : Nat} (v : BitVec w) : (s.nzv0 v).a = s.a := rfl
@[simp] theorem State.nzv0_b (s : State) {w : Nat} (v : BitVec w) : (s.nzv0 v).b = s.b := rfl
@[simp] theorem State.nzv0_x (s : State) {w : Nat} (v : BitVec w) : (s.nzv0 v).x = s.x := rfl
@[simp] theorem State.nzv0_y (s : State) {w : Nat} (v : BitVec w) : (s.nzv0 v).y = s.y := rfl
@[simp] theorem State.nzv0_sp (s : State) {w : Nat} (v : BitVec w) : (s.nzv0 v).sp = s.sp := rfl
@[simp] theorem State.nzv0_pc (s : State) {w : Nat} (v : BitVec w) : (s.nzv0 v).pc = s.pc := rfl
@[simp] theorem State.nzv0_ccr (s : State) {w : Nat} (v : BitVec w) : (s.nzv0 v).ccr = putNZV s.ccr (isNeg v) (isZero v) false := rfl
@[simp] theorem State.nzv0_tmp1 (s : State) {w : Nat} (v : BitVec w) : (s.nzv0 v).tmp1 = s.tmp1 := rfl
@[simp] theorem State.nzv0_tmp2 (s : State) {w : Nat} (v : BitVec w) : (s.nzv0 v).tmp2 = s.tmp2 := rfl
@[simp] theorem State.nzv0_tmp3 (s : State) {w : Nat} (v : BitVec w) : (s.nzv0 v).tmp3 = s.tmp3 := rfl
@[simp] theorem State.nzv0_ppage (s : State) {w : Nat} (v : BitVec w) : (s.nzv0 v).ppage = s.ppage := rfl
@[simp] theorem State.nzv0_dpage (s : State) {w : Nat} (v : BitVec w) : (s.nzv0 v).dpage = s.dpage := rfl
@[simp] theorem State.nzv0_epage (s : State) {w : Nat} (v : BitVec w) : (s.nzv0 v).epage = s.epage := rfl
@[simp] theorem State.nzv0_windows (s : State) {w : Nat} (v : BitVec w) : (s.nzv0 v).windows = s.windows := rfl
@[simp] theorem State.nzv0_iDelay (s : State) {w : Nat} (v : BitVec w) : (s.nzv0 v).iDelay = s.iDelay := rfl
@[simp] theorem State.nzv0_run (s : State) {w : Nat} (v : BitVec w) : (s.nzv0 v).run = s.run := rfl
@[simp] theorem State.nzv0_progress (s : State) {w : Nat} (v : BitVec w) : (s.nzv0 v).progress = s.progress := rfl
@[simp] theorem State.nzv0_outputs (s : State) {w : Nat} (v : BitVec w) : (s.nzv0 v).outputs = s.outputs := rfl
@[simp] theorem State.nzv0_consumed (s : State) {w : Nat} (v : BitVec w) : (s.nzv0 v).consumed = s.consumed := rfl
@[simp] theorem State.nzv0_suspended (s : State) {w : Nat} (v : BitVec w) : (s.nzv0 v).suspended = s.suspended := rfl
@[simp] theorem State.nzv0_stale (s : State) {w : Nat} (v : BitVec w) : (s.nzv0 v).stale = s.stale := rfl
@[simp] theorem State.nzv0_pins (s : State) {w : Nat} (v : BitVec w) : (s.nzv0 v).pins = s.pins := rfl
@[simp] theorem State.nzv0_bdm (s : State) {w : Nat} (v : BitVec w) : (s.nzv0 v).bdm = s.bdm := rfl
@[simp] theorem State.nzv0_schedule (s : State) {w : Nat} (v : BitVec w) : (s.nzv0 v).schedule = s.schedule := rfl
@[simp] theorem State.nzv0_budget (s : State) {w : Nat} (v : BitVec w) : (s.nzv0 v).budget = s.budget := rfl
@[simp] theorem State.nzv0_stores (s : State) {w : Nat} (v : BitVec w) : (s.nzv0 v).stores = s.stores := rfl
@[simp] theorem State.nzv0_earlier (s : State) {w : Nat} (v : BitVec w) : (s.nzv0 v).earlier = s.earlier := rfl
@[simp] theorem State.nzv0_free (s : State) {w : Nat} (v : BitVec w) : (s.nzv0 v).free = s.free := rfl
@[simp] theorem State.nzv0_mem (s : State) {w : Nat} (v : BitVec w) : (s.nzv0 v).mem = s.mem := rfl
@[simp] theorem State.nzv0_cfg (s : State) {w : Nat} (v : BitVec w) : (s.nzv0 v).cfg = s.cfg := rfl

/-! ## nzvc -/

@[simp] theorem State.nzvc_a (s : State) {w : Nat} (r : Alu w) : (s.nzvc r).a = s.a := rfl
@[simp] theorem State.nzvc_b (s : State) {w : Nat} (r : Alu w) : (s.nzvc r).b = s.b := rfl
@[simp] theorem State.nzvc_x (s : State) {w : Nat} (r : Alu w) : (s.nzvc r).x = s.x := rfl
@[simp] theorem State.nzvc_y (s : State) {w : Nat} (r : Alu w) : (s.nzvc r).y = s.y := rfl
@[simp] theorem State.nzvc_sp (s : State) {w : Nat} (r : Alu w) : (s.nzvc r).sp = s.sp := rfl
@[simp] theorem State.nzvc_pc (s : State) {w : Nat} (r : Alu w) : (s.nzvc r).pc = s.pc := rfl
@[simp] theorem State.nzvc_ccr (s : State) {w : Nat} (r : Alu w) : (s.nzvc r).ccr = r.putFlags s.ccr := rfl
@[simp] theorem State.nzvc_tmp1 (s : State) {w : Nat} (r : Alu w) : (s.nzvc r).tmp1 = s.tmp1 := rfl
@[simp] theorem State.nzvc_tmp2 (s : State) {w : Nat} (r : Alu w) : (s.nzvc r).tmp2 = s.tmp2 := rfl
@[simp] theorem State.nzvc_tmp3 (s : State) {w : Nat} (r : Alu w) : (s.nzvc r).tmp3 = s.tmp3 := rfl
@[simp] theorem State.nzvc_ppage (s : State) {w : Nat} (r : Alu w) : (s.nzvc r).ppage = s.ppage := rfl
@[simp] theorem State.nzvc_dpage (s : State) {w : Nat} (r : Alu w) : (s.nzvc r).dpage = s.dpage := rfl
@[simp] theorem State.nzvc_epage (s : State) {w : Nat} (r : Alu w) : (s.nzvc r).epage = s.epage := rfl
@[simp] theorem State.nzvc_windows (s : State) {w : Nat} (r : Alu w) : (s.nzvc r).windows = s.windows := rfl
@[simp] theorem State.nzvc_iDelay (s : State) {w : Nat} (r : Alu w) : (s.nzvc r).iDelay = s.iDelay := rfl
@[simp] theorem State.nzvc_run (s : State) {w : Nat} (r : Alu w) : (s.nzvc r).run = s.run := rfl
@[simp] theorem State.nzvc_progress (s : State) {w : Nat} (r : Alu w) : (s.nzvc r).progress = s.progress := rfl
@[simp] theorem State.nzvc_outputs (s : State) {w : Nat} (r : Alu w) : (s.nzvc r).outputs = s.outputs := rfl
@[simp] theorem State.nzvc_consumed (s : State) {w : Nat} (r : Alu w) : (s.nzvc r).consumed = s.consumed := rfl
@[simp] theorem State.nzvc_suspended (s : State) {w : Nat} (r : Alu w) : (s.nzvc r).suspended = s.suspended := rfl
@[simp] theorem State.nzvc_stale (s : State) {w : Nat} (r : Alu w) : (s.nzvc r).stale = s.stale := rfl
@[simp] theorem State.nzvc_pins (s : State) {w : Nat} (r : Alu w) : (s.nzvc r).pins = s.pins := rfl
@[simp] theorem State.nzvc_bdm (s : State) {w : Nat} (r : Alu w) : (s.nzvc r).bdm = s.bdm := rfl
@[simp] theorem State.nzvc_schedule (s : State) {w : Nat} (r : Alu w) : (s.nzvc r).schedule = s.schedule := rfl
@[simp] theorem State.nzvc_budget (s : State) {w : Nat} (r : Alu w) : (s.nzvc r).budget = s.budget := rfl
@[simp] theorem State.nzvc_stores (s : State) {w : Nat} (r : Alu w) : (s.nzvc r).stores = s.stores := rfl
@[simp] theorem State.nzvc_earlier (s : State) {w : Nat} (r : Alu w) : (s.nzvc r).earlier = s.earlier := rfl
@[simp] theorem State.nzvc_free (s : State) {w : Nat} (r : Alu w) : (s.nzvc r).free = s.free := rfl
@[simp] theorem State.nzvc_mem (s : State) {w : Nat} (r : Alu w) : (s.nzvc r).mem = s.mem := rfl
@[simp] theorem State.nzvc_cfg (s : State) {w : Nat} (r : Alu w) : (s.nzvc r).cfg = s.cfg := rfl

/-! ## jump -/

@[simp] theorem jump_a (s : State) (p : Word) : (jump s p).a = s.a := rfl
@[simp] theorem jump_b (s : State) (p : Word) : (jump s p).b = s.b := rfl
@[simp] theorem jump_x (s : State) (p : Word) : (jump s p).x = s.x := rfl
@[simp] theorem jump_y (s : State) (p : Word) : (jump s p).y = s.y := rfl
@[simp] theorem jump_sp (s : State) (p : Word) : (jump s p).sp = s.sp := rfl
@[simp] theorem jump_pc (s : State) (p : Word) : (jump s p).pc = p := rfl
@[simp] theorem jump_ccr (s : State) (p : Word) : (jump s p).ccr = s.ccr := rfl
@[simp] theorem jump_tmp1 (s : State) (p : Word) : (jump s p).tmp1 = s.tmp1 := rfl
@[simp] theorem jump_tmp2 (s : State) (p : Word) : (jump s p).tmp2 = s.tmp2 := rfl
@[simp] theorem jump_tmp3 (s : State) (p : Word) : (jump s p).tmp3 = s.tmp3 := rfl
@[simp] theorem jump_ppage (s : State) (p : Word) : (jump s p).ppage = s.ppage := rfl
@[simp] theorem jump_dpage (s : State) (p : Word) : (jump s p).dpage = s.dpage := rfl
@[simp] theorem jump_epage (s : State) (p : Word) : (jump s p).epage = s.epage := rfl
@[simp] theorem jump_windows (s : State) (p : Word) : (jump s p).windows = s.windows := rfl
@[simp] theorem jump_iDelay (s : State) (p : Word) : (jump s p).iDelay = s.iDelay := rfl
@[simp] theorem jump_run (s : State) (p : Word) : (jump s p).run = s.run := rfl
@[simp] theorem jump_progress (s : State) (p : Word) : (jump s p).progress = s.progress := rfl
@[simp] theorem jump_outputs (s : State) (p : Word) : (jump s p).outputs = s.outputs := rfl
@[simp] theorem jump_consumed (s : State) (p : Word) : (jump s p).consumed = s.consumed := rfl
@[simp] theorem jump_suspended (s : State) (p : Word) : (jump s p).suspended = s.suspended := rfl
@[simp] theorem jump_stale (s : State) (p : Word) : (jump s p).stale = [] := rfl
@[simp] theorem jump_pins (s : State) (p : Word) : (jump s p).pins = s.pins := rfl
@[simp] theorem jump_bdm (s : State) (p : Word) : (jump s p).bdm = s.bdm := rfl
@[simp] theorem jump_schedule (s : State) (p : Word) : (jump s p).schedule = s.schedule := rfl
@[simp] theorem jump_budget (s : State) (p : Word) : (jump s p).budget = s.budget := rfl
@[simp] theorem jump_stores (s : State) (p : Word) : (jump s p).stores = s.stores := rfl
@[simp] theorem jump_earlier (s : State) (p : Word) : (jump s p).earlier = s.earlier := rfl
@[simp] theorem jump_free (s : State) (p : Word) : (jump s p).free = s.free := rfl
@[simp] theorem jump_mem (s : State) (p : Word) : (jump s p).mem = s.mem := rfl
@[simp] theorem jump_cfg (s : State) (p : Word) : (jump s p).cfg = s.cfg := rfl

/-! ## drop -/

@[simp] theorem drop_a (s : State) (n : Word) : (drop s n).a = s.a := rfl
@[simp] theorem drop_b (s : State) (n : Word) : (drop s n).b = s.b := rfl
@[simp] theorem drop_x (s : State) (n : Word) : (drop s n).x = s.x := rfl
@[simp] theorem drop_y (s : State) (n : Word) : (drop s n).y = s.y := rfl
@[simp] theorem drop_sp (s : State) (n : Word) : (drop s n).sp = s.sp + n := rfl
@[simp] theorem drop_pc (s : State) (n : Word) : (drop s n).pc = s.pc := rfl
@[simp] theorem drop_ccr (s : State) (n : Word) : (drop s n).ccr = s.ccr := rfl
@[simp] theorem drop_tmp1 (s : State) (n : Word) : (drop s n).tmp1 = s.tmp1 := rfl
@[simp] theorem drop_tmp2 (s : State) (n : Word) : (drop s n).tmp2 = s.tmp2 := rfl
@[simp] theorem drop_tmp3 (s : State) (n : Word) : (drop s n).tmp3 = s.tmp3 := rfl
@[simp] theorem drop_ppage (s : State) (n : Word) : (drop s n).ppage = s.ppage := rfl
@[simp] theorem drop_dpage (s : State) (n : Word) : (drop s n).dpage = s.dpage := rfl
@[simp] theorem drop_epage (s : State) (n : Word) : (drop s n).epage = s.epage := rfl
@[simp] theorem drop_windows (s : State) (n : Word) : (drop s n).windows = s.windows := rfl
@[simp] theorem drop_iDelay (s : State) (n : Word) : (drop s n).iDelay = s.iDelay := rfl
@[simp] theorem drop_run (s : State) (n : Word) : (drop s n).run = s.run := rfl
@[simp] theorem drop_progress (s : State) (n : Word) : (drop s n).progress = s.progress := rfl
@[simp] theorem drop_outputs (s : State) (n : Word) : (drop s n).outputs = s.outputs := rfl
@[simp] theorem drop_consumed (s : State) (n : Word) : (drop s n).consumed = s.consumed := rfl
@[simp] theorem drop_suspended (s : State) (n : Word) : (drop s n).suspended = s.suspended := rfl
@[simp] theorem drop_stale (s : State) (n : Word) : (drop s n).stale = s.stale := rfl
@[simp] theorem drop_pins (s : State) (n : Word) : (drop s n).pins = s.pins := rfl
@[simp] theorem drop_bdm (s : State) (n : Word) : (drop s n).bdm = s.bdm := rfl
@[simp] theorem drop_schedule (s : State) (n : Word) : (drop s n).schedule = s.schedule := rfl
@[simp] theorem drop_budget (s : State) (n : Word) : (drop s n).budget = s.budget := rfl
@[simp] theorem drop_stores (s : State) (n : Word) : (drop s n).stores = s.stores := rfl
@[simp] theorem drop_earlier (s : State) (n : Word) : (drop s n).earlier = s.earlier := rfl
@[simp] theorem drop_free (s : State) (n : Word) : (drop s n).free = s.free := rfl
@[simp] theorem drop_mem (s : State) (n : Word) : (drop s n).mem = s.mem := rfl
@[simp] theorem drop_cfg (s : State) (n : Word) : (drop s n).cfg = s.cfg := rfl

/-! ## dropTemporaries -/

@[simp] theorem dropTemporaries_a (s : State) : (dropTemporaries s).a = s.a := rfl
@[simp] theorem dropTemporaries_b (s : State) : (dropTemporaries s).b = s.b := rfl
@[simp] theorem dropTemporaries_x (s : State) : (dropTemporaries s).x = s.x := rfl
@[simp] theorem dropTemporaries_y (s : State) : (dropTemporaries s).y = s.y := rfl
@[simp] theorem dropTemporaries_sp (s : State) : (dropTemporaries s).sp = s.sp := rfl
@[simp] theorem dropTemporaries_pc (s : State) : (dropTemporaries s).pc = s.pc := rfl
@[simp] theorem dropTemporaries_ccr (s : State) : (dropTemporaries s).ccr = s.ccr := rfl
@[simp] theorem dropTemporaries_tmp1 (s : State) : (dropTemporaries s).tmp1 = Config.freeWord s.free .entry1 := rfl
@[simp] theorem dropTemporaries_tmp2 (s : State) : (dropTemporaries s).tmp2 = Config.freeWord s.free .entry2 := rfl
@[simp] theorem dropTemporaries_tmp3 (s : State) : (dropTemporaries s).tmp3 = Config.freeWord s.free .entry3 := rfl
@[simp] theorem dropTemporaries_ppage (s : State) : (dropTemporaries s).ppage = s.ppage := rfl
@[simp] theorem dropTemporaries_dpage (s : State) : (dropTemporaries s).dpage = s.dpage := rfl
@[simp] theorem dropTemporaries_epage (s : State) : (dropTemporaries s).epage = s.epage := rfl
@[simp] theorem dropTemporaries_windows (s : State) : (dropTemporaries s).windows = s.windows := rfl
@[simp] theorem dropTemporaries_iDelay (s : State) : (dropTemporaries s).iDelay = s.iDelay := rfl
@[simp] theorem dropTemporaries_run (s : State) : (dropTemporaries s).run = s.run := rfl
@[simp] theorem dropTemporaries_progress (s : State) : (dropTemporaries s).progress = s.progress := rfl
@[simp] theorem dropTemporaries_outputs (s : State) : (dropTemporaries s).outputs = s.outputs := rfl
@[simp] theorem dropTemporaries_consumed (s : State) : (dropTemporaries s).consumed = s.consumed := rfl
@[simp] theorem dropTemporaries_suspended (s : State) : (dropTemporaries s).suspended = s.suspended := rfl
@[simp] theorem dropTemporaries_stale (s : State) : (dropTemporaries s).stale = s.stale := rfl
@[simp] theorem dropTemporaries_pins (s : State) : (dropTemporaries s).pins = s.pins := rfl
@[simp] theorem dropTemporaries_bdm (s : State) : (dropTemporaries s).bdm = s.bdm := rfl
@[simp] theorem dropTemporaries_schedule (s : State) : (dropTemporaries s).schedule = s.schedule := rfl
@[simp] theorem dropTemporaries_budget (s : State) : (dropTemporaries s).budget = s.budget := rfl
@[simp] theorem dropTemporaries_stores (s : State) : (dropTemporaries s).stores = s.stores := rfl
@[simp] theorem dropTemporaries_earlier (s : State) : (dropTemporaries s).earlier = s.earlier := rfl
@[simp] theorem dropTemporaries_free (s : State) : (dropTemporaries s).free = s.free := rfl
@[simp] theorem dropTemporaries_mem (s : State) : (dropTemporaries s).mem = s.mem := rfl
@[simp] theorem dropTemporaries_cfg (s : State) : (dropTemporaries s).cfg = s.cfg := rfl

/-! ## setShift -/

@[simp] theorem setShift_a (s : State) (v : Word) : (setShift s v).a = s.a := rfl
@[simp] theorem setShift_b (s : State) (v : Word) : (setShift s v).b = s.b := rfl
@[simp] theorem setShift_x (s : State) (v : Word) : (setShift s v).x = s.x := rfl
@[simp] theorem setShift_y (s : State) (v : Word) : (setShift s v).y = s.y := rfl
@[simp] theorem setShift_sp (s : State) (v : Word) : (setShift s v).sp = s.sp := rfl
@[simp] theorem setShift_pc (s : State) (v : Word) : (setShift s v).pc = s.pc := rfl
@[simp] theorem setShift_ccr (s : State) (v : Word) : (setShift s v).ccr = s.ccr := rfl
@[simp] theorem setShift_tmp1 (s : State) (v : Word) : (setShift s v).tmp1 = s.tmp1 := rfl
@[simp] theorem setShift_tmp2 (s : State) (v : Word) : (setShift s v).tmp2 = s.tmp2 := rfl
@[simp] theorem setShift_tmp3 (s : State) (v : Word) : (setShift s v).tmp3 = s.tmp3 := rfl
@[simp] theorem setShift_ppage (s : State) (v : Word) : (setShift s v).ppage = s.ppage := rfl
@[simp] theorem setShift_dpage (s : State) (v : Word) : (setShift s v).dpage = s.dpage := rfl
@[simp] theorem setShift_epage (s : State) (v : Word) : (setShift s v).epage = s.epage := rfl
@[simp] theorem setShift_windows (s : State) (v : Word) : (setShift s v).windows = s.windows := rfl
@[simp] theorem setShift_iDelay (s : State) (v : Word) : (setShift s v).iDelay = s.iDelay := rfl
@[simp] theorem setShift_run (s : State) (v : Word) : (setShift s v).run = s.run := rfl
@[simp] theorem setShift_progress (s : State) (v : Word) : (setShift s v).progress = s.progress := rfl
@[simp] theorem setShift_outputs (s : State) (v : Word) : (setShift s v).outputs = s.outputs := rfl
@[simp] theorem setShift_consumed (s : State) (v : Word) : (setShift s v).consumed = s.consumed := rfl
@[simp] theorem setShift_suspended (s : State) (v : Word) : (setShift s v).suspended = s.suspended := rfl
@[simp] theorem setShift_stale (s : State) (v : Word) : (setShift s v).stale = s.stale := rfl
@[simp] theorem setShift_pins (s : State) (v : Word) : (setShift s v).pins = s.pins := rfl
@[simp] theorem setShift_bdm (s : State) (v : Word) : (setShift s v).bdm = { s.bdm with shift := v, status := putBit s.bdm.status 4 true } := rfl
@[simp] theorem setShift_schedule (s : State) (v : Word) : (setShift s v).schedule = s.schedule := rfl
@[simp] theorem setShift_budget (s : State) (v : Word) : (setShift s v).budget = s.budget := rfl
@[simp] theorem setShift_stores (s : State) (v : Word) : (setShift s v).stores = s.stores := rfl
@[simp] theorem setShift_earlier (s : State) (v : Word) : (setShift s v).earlier = s.earlier := rfl
@[simp] theorem setShift_free (s : State) (v : Word) : (setShift s v).free = s.free := rfl
@[simp] theorem setShift_mem (s : State) (v : Word) : (setShift s v).mem = s.mem := rfl
@[simp] theorem setShift_cfg (s : State) (v : Word) : (setShift s v).cfg = s.cfg := rfl

/-! ## beginCommand -/

@[simp] theorem beginCommand_a (s : State) : (beginCommand s).a = s.a := rfl
@[simp] theorem beginCommand_b (s : State) : (beginCommand s).b = s.b := rfl
@[simp] theorem beginCommand_x (s : State) : (beginCommand s).x = s.x := rfl
@[simp] theorem beginCommand_y (s : State) : (beginCommand s).y = s.y := rfl
@[simp] theorem beginCommand_sp (s : State) : (beginCommand s).sp = s.sp := rfl
@[simp] theorem beginCommand_pc (s : State) : (beginCommand s).pc = s.pc := rfl
@[simp] theorem beginCommand_ccr (s : State) : (beginCommand s).ccr = s.ccr := rfl
@[simp] theorem beginCommand_tmp1 (s : State) : (beginCommand s).tmp1 = s.tmp1 := rfl
@[simp] theorem beginCommand_tmp2 (s : State) : (beginCommand s).tmp2 = s.tmp2 := rfl
@[simp] theorem beginCommand_tmp3 (s : State) : (beginCommand s).tmp3 = s.tmp3 := rfl
@[simp] theorem beginCommand_ppage (s : State) : (beginCommand s).ppage = s.ppage := rfl
@[simp] theorem beginCommand_dpage (s : State) : (beginCommand s).dpage = s.dpage := rfl
@[simp] theorem beginCommand_epage (s : State) : (beginCommand s).epage = s.epage := rfl
@[simp] theorem beginCommand_windows (s : State) : (beginCommand s).windows = s.windows := rfl
@[simp] theorem beginCommand_iDelay (s : State) : (beginCommand s).iDelay = s.iDelay := rfl
@[simp] theorem beginCommand_run (s : State) : (beginCommand s).run = s.run := rfl
@[simp] theorem beginCommand_progress (s : State) : (beginCommand s).progress = s.progress := rfl
@[simp] theorem beginCommand_outputs (s : State) : (beginCommand s).outputs = s.outputs := rfl
@[simp] theorem beginCommand_consumed (s : State) : (beginCommand s).consumed = s.consumed := rfl
@[simp] theorem beginCommand_suspended (s : State) : (beginCommand s).suspended = s.suspended := rfl
@[simp] theorem beginCommand_stale (s : State) : (beginCommand s).stale = s.stale := rfl
@[simp] theorem beginCommand_pins (s : State) : (beginCommand s).pins = s.pins := rfl
@[simp] theorem beginCommand_bdm (s : State) : (beginCommand s).bdm = { s.bdm with status := putBit s.bdm.status 4 false } := rfl
@[simp] theorem beginCommand_schedule (s : State) : (beginCommand s).schedule = s.schedule := rfl
@[simp] theorem beginCommand_budget (s : State) : (beginCommand s).budget = s.budget := rfl
@[simp] theorem beginCommand_stores (s : State) : (beginCommand s).stores = s.stores := rfl
@[simp] theorem beginCommand_earlier (s : State) : (beginCommand s).earlier = s.earlier := rfl
@[simp] theorem beginCommand_free (s : State) : (beginCommand s).free = s.free := rfl
@[simp] theorem beginCommand_mem (s : State) : (beginCommand s).mem = s.mem := rfl
@[simp] theorem beginCommand_cfg (s : State) : (beginCommand s).cfg = s.cfg := rfl

end Sys2Proof.Machine
end

