-- ==== Sys2Proof/Laws/Flags.lean ====
section
/-! SUPPORT. What the operations on the condition codes do bit by bit, and what additions, subtractions and shifts do in
integers. -/

namespace Sys2Proof.Machine

/-! ## Bits of a byte -/

/-- The bits of a byte with one bit written. -/
@[simp] theorem putBit_getElem (r : Byte) {i : Nat} (v : Bool) (k : Nat) (hk : k < 8) :
    (putBit r i v)[k] = if k = i then v else r[k] := by
  have h1 : ((1 : Byte) <<< i)[k] = decide (k = i) := by
    rw [Bool.eq_iff_iff]
    simp
    omega
  have h2 : (putBit r i v)[k] = if v then r[k] || ((1 : Byte) <<< i)[k] else r[k] && !((1 : Byte) <<< i)[k] := by
    cases v <;> simp [putBit]
  rw [h2, h1]
  by_cases h : k = i <;> cases v <;> simp [h]

/-- The same for any bit number. -/
theorem putBit_getLsbD (r : Byte) {i : Nat} (v : Bool) (k : Nat) (hi : i < 8) :
    (putBit r i v).getLsbD k = if k = i then v else r.getLsbD k := by
  by_cases hk : k < 8
  · simp [hk]
  · have : k ≠ i := by omega
    simp [BitVec.getLsbD_of_ge _ k (Nat.le_of_not_lt hk), this]

/-- All eight bits determine a byte. -/
theorem byte_ext {r q : Byte} (h : ∀ k < 8, r.getLsbD k = q.getLsbD k) : r = q :=
  BitVec.eq_of_getLsbD_eq h

/-! ## The flags that each operation writes -/

/-- N, Z and V written. -/
theorem flags_putNZV (s t : State) (n z v : Bool) (h : t.ccr = putNZV s.ccr n z v) : FlagsNZV s t n z v := by
  simp [FlagsNZV, CcrIs, State.flagS, State.flagX, State.flagH, State.flagI, State.flagN, State.flagZ, State.flagV,
    State.flagC, h, putNZV, putNZ, putZ]

/-- N, Z, V and C written. -/
theorem flags_putNZVC (s t : State) (n z v c : Bool) (h : t.ccr = putNZVC s.ccr n z v c) : FlagsNZVC s t n z v c := by
  simp [FlagsNZVC, CcrIs, State.flagS, State.flagX, State.flagH, State.flagI, State.flagN, State.flagZ, State.flagV,
    State.flagC, h, putNZVC, putNZV, putNZ, putZ]

/-- N, Z and C written. -/
theorem flags_putNZC (s t : State) (n z c : Bool) (h : t.ccr = putNZC s.ccr n z c) : FlagsNZVC s t n z s.flagV c := by
  simp [FlagsNZVC, CcrIs, State.flagS, State.flagX, State.flagH, State.flagI, State.flagN, State.flagZ, State.flagV,
    State.flagC, h, putNZC, putNZ, putZ]

/-- Z written. -/
theorem flags_putZ (s t : State) (z : Bool) (h : t.ccr = putZ s.ccr z) : FlagsNZV s t s.flagN z s.flagV := by
  simp [FlagsNZV, CcrIs, State.flagS, State.flagX, State.flagH, State.flagI, State.flagN, State.flagZ, State.flagV,
    State.flagC, h, putZ]

/-- H, N, Z, V and C written. -/
theorem flags_putHNZVC (s t : State) (h n z v c : Bool) (e : t.ccr = putHNZVC s.ccr h n z v c) :
    FlagsHNZVC s t h n z v c := by
  simp [FlagsHNZVC, CcrIs, State.flagS, State.flagX, State.flagH, State.flagI, State.flagN, State.flagZ, State.flagV,
    State.flagC, e, putHNZVC, putNZVC, putNZV, putNZ, putZ]

/-- A value loaded into the CCR from data. -/
theorem loadsCcr_protectX (s t : State) (v : Byte) (h : t.ccr = protectX s.ccr v) : LoadsCcr s t v := by
  simp [LoadsCcr, CcrIs, State.flagS, State.flagX, State.flagH, State.flagI, State.flagN, State.flagZ, State.flagV,
    State.flagC, h, protectX]

/-! ## The top bit and zero -/

theorem isNeg_eq_negative {w : Nat} (r : BitVec w) : isNeg r = negative r := by
  rw [isNeg, negative, BitVec.msb_eq_decide]

theorem isZero_eq_zero {w : Nat} (r : BitVec w) : isZero r = zero r := by
  rw [isZero, zero, Bool.eq_iff_iff, beq_iff_eq, decide_eq_true_eq]
  exact ⟨fun h => by rw [h]; rfl, fun h => BitVec.eq_of_toNat_eq h⟩

/-! ## Addition and subtraction in integers -/

/-- The carry or borrow as a number of the width. -/
theorem toNat_setWidth_ofBool {w : Nat} (hw : 0 < w) (c : Bool) : ((BitVec.ofBool c).setWidth w).toNat = c.toNat := by
  have h : 1 < 2 ^ w := Nat.one_lt_two_pow (by omega)
  cases c <;> simp [BitVec.toNat_setWidth, Nat.mod_eq_of_lt, h]

/-- `addc` gives the sum. -/
theorem isSum_addc {w : Nat} (hw : 0 < w) (a m : BitVec w) (c : Bool) : IsSum a m c (addc a m c).r := by
  simp only [IsSum, addc, wideSum, BitVec.toNat_add, toNat_setWidth_ofBool hw, Nat.mod_add_mod]

/-- `subb` gives the difference. -/
theorem isDiff_subb {w : Nat} (hw : 0 < w) (a m : BitVec w) (c : Bool) : IsDiff a m c (subb a m c).r := by
  have hp : (2 : Int) ^ w = ((2 ^ w : Nat) : Int) := by simp
  simp only [IsDiff, subb, wideDiff, BitVec.toNat_sub, toNat_setWidth_ofBool hw, hp]
  have h1 : m.toNat < 2 ^ w := m.isLt
  have h2 : c.toNat < 2 ^ w := Nat.lt_of_le_of_lt (Bool.toNat_le c) (Nat.one_lt_two_pow (by omega))
  push_cast [Nat.cast_sub (Nat.le_of_lt h1), Nat.cast_sub (Nat.le_of_lt h2)]
  rw [Int.add_emod, Int.emod_emod, ← Int.add_emod]
  rw [show (2 : Int) ^ w - c.toNat + (2 ^ w - m.toNat + a.toNat) = (a.toNat - m.toNat - c.toNat) + 2 ^ w * 2 by ring]
  exact Int.add_mul_emod_self_left _ _ _

/-- A difference is determined. -/
theorem IsDiff.eq {w : Nat} {a m r q : BitVec w} {c : Bool} (h : IsDiff a m c r) (g : IsDiff a m c q) : r = q := by
  apply BitVec.eq_of_toNat_eq
  have : (r.toNat : Int) = q.toNat := h.trans g.symm
  omega

/-- A signed number from its unsigned one. -/
theorem toInt_cases {n : Nat} (a : BitVec (n + 1)) :
    a.toNat < 2 ^ n ∧ a.toInt = a.toNat ∨ 2 ^ n ≤ a.toNat ∧ a.toInt = a.toNat - 2 * ((2 ^ n : Nat) : Int) := by
  rw [BitVec.toInt_eq_toNat_cond, pow_succ]
  split
  · exact .inl ⟨by omega, rfl⟩
  · exact .inr ⟨by omega, by push_cast; ring⟩

/-- V of `addc` is the signed overflow, C the carry. -/
theorem addc_flags {w : Nat} (hw : 0 < w) (a m : BitVec w) (c : Bool) :
    (addc a m c).v = outOfRange w (signedSum a m c) ∧ (addc a m c).c = decide (2 ^ w ≤ wideSum a m c) := by
  obtain ⟨n, rfl⟩ : ∃ n, w = n + 1 := ⟨w - 1, by omega⟩
  have h : (addc a m c).r.toNat = (a.toNat + m.toNat + c.toNat) % 2 ^ (n + 1) := isSum_addc hw a m c
  have h1 := a.isLt
  have h2 := m.isLt
  have h3 := c.toNat_le
  have ha := toInt_cases a
  have hm := toInt_cases m
  have hp : (2 : Int) ^ n = ((2 ^ n : Nat) : Int) := by simp
  have hv : (addc a m c).v = (a.msb && m.msb && !(addc a m c).r.msb || !a.msb && !m.msb && (addc a m c).r.msb) := rfl
  have hc : (addc a m c).c = (a.msb && m.msb || m.msb && !(addc a m c).r.msb || !(addc a m c).r.msb && a.msb) := rfl
  rw [hv, hc]
  refine (and_congr Bool.eq_iff_iff Bool.eq_iff_iff).mpr ?_
  simp only [outOfRange, BitVec.msb_eq_decide, Nat.add_sub_cancel, Bool.or_eq_true,
    Bool.and_eq_true, Bool.not_eq_true', decide_eq_true_eq, decide_eq_false_iff_not, hp]
  simp only [signedSum, wideSum]
  clear hv hc hp
  rw [pow_succ] at *
  have h4 : (addc a m c).r.toNat = a.toNat + m.toNat + c.toNat - 2 ^ n * 2 ∧ 2 ^ n * 2 ≤ a.toNat + m.toNat + c.toNat ∨
      (addc a m c).r.toNat = a.toNat + m.toNat + c.toNat ∧ a.toNat + m.toNat + c.toNat < 2 ^ n * 2 := by
    by_cases g : 2 ^ n * 2 ≤ a.toNat + m.toNat + c.toNat
    · rw [h, Nat.mod_eq_sub_mod g, Nat.mod_eq_of_lt (by omega)]
      omega
    · rw [h, Nat.mod_eq_of_lt (by omega)]
      omega
  clear h
  constructor <;> omega

/-- V of `subb` is the signed overflow, C the borrow. -/
theorem subb_flags {w : Nat} (hw : 0 < w) (a m : BitVec w) (c : Bool) :
    (subb a m c).v = outOfRange w (signedDiff a m c) ∧ (subb a m c).c = decide (wideDiff a m c < 0) := by
  obtain ⟨n, rfl⟩ : ∃ n, w = n + 1 := ⟨w - 1, by omega⟩
  have h : ((subb a m c).r.toNat : Int) = ((a.toNat : Int) - m.toNat - c.toNat) % 2 ^ (n + 1) := isDiff_subb hw a m c
  have h1 := a.isLt
  have h2 := m.isLt
  have h3 := c.toNat_le
  have ha := toInt_cases a
  have hm := toInt_cases m
  have hp : (2 : Int) ^ n = ((2 ^ n : Nat) : Int) := by simp
  have hv : (subb a m c).v = (a.msb && !m.msb && !(subb a m c).r.msb || !a.msb && m.msb && (subb a m c).r.msb) := rfl
  have hc : (subb a m c).c = (!a.msb && m.msb || m.msb && (subb a m c).r.msb || (subb a m c).r.msb && !a.msb) := rfl
  rw [hv, hc]
  refine (and_congr Bool.eq_iff_iff Bool.eq_iff_iff).mpr ?_
  simp only [outOfRange, BitVec.msb_eq_decide, Nat.add_sub_cancel, Bool.or_eq_true,
    Bool.and_eq_true, Bool.not_eq_true', decide_eq_true_eq, decide_eq_false_iff_not, hp]
  simp only [signedDiff, wideDiff]
  clear hv hc
  rw [pow_succ] at *
  rw [hp] at h
  clear hp
  have h4 : ((subb a m c).r.toNat : Int) = (a.toNat : Int) - m.toNat - c.toNat + ((2 ^ n : Nat) : Int) * 2 ∧
        (a.toNat : Int) - m.toNat - c.toNat < 0 ∨
      ((subb a m c).r.toNat : Int) = (a.toNat : Int) - m.toNat - c.toNat ∧ 0 ≤ (a.toNat : Int) - m.toNat - c.toNat := by
    by_cases g : (a.toNat : Int) - m.toNat - c.toNat < 0
    · rw [h, ← Int.add_emod_right, Int.emod_eq_of_lt (by omega) (by omega)]
      exact .inl ⟨rfl, g⟩
    · rw [h, Int.emod_eq_of_lt (by omega) (by omega)]
      exact .inr ⟨rfl, by omega⟩
  clear h
  constructor <;> omega

/-- Bit `i` of a number. -/
theorem getLsbD_eq_decide {w : Nat} (r : BitVec w) (i : Nat) : r.getLsbD i = decide (r.toNat / 2 ^ i % 2 = 1) := by
  rw [BitVec.getLsbD, Nat.testBit_eq_decide_div_mod_eq]

/-- H of an addition is the carry out of bit 3. -/
theorem halfCarry_addc (a m : Byte) (c : Bool) :
    halfCarry a m (addc a m c).r = decide (16 ≤ a.toNat % 16 + m.toNat % 16 + c.toNat) := by
  have h : (addc a m c).r.toNat = (a.toNat + m.toNat + c.toNat) % 2 ^ 8 := isSum_addc (by decide) a m c
  have h3 := c.toNat_le
  rw [Bool.eq_iff_iff, decide_eq_true_eq]
  simp only [halfCarry, getLsbD_eq_decide, Bool.or_eq_true, Bool.and_eq_true, Bool.not_eq_true', decide_eq_true_eq,
    decide_eq_false_iff_not]
  omega

/-- The flags of a subtraction. -/
theorem diffFlags_of_ccr {w : Nat} (hw : 0 < w) {s t : State} {a m : BitVec w} {c : Bool}
    (h : t.ccr = (subb a m c).putFlags s.ccr) : DiffFlags s t a m c (subb a m c).r := by
  obtain ⟨hv, hc⟩ := subb_flags hw a m c
  rw [DiffFlags, ← hv, ← hc, ← isNeg_eq_negative, ← isZero_eq_zero]
  exact flags_putNZVC _ _ _ _ _ _ h

/-- The flags of an addition that keeps H. -/
theorem sumFlags_of_ccr {w : Nat} (hw : 0 < w) {s t : State} {a m : BitVec w} {c : Bool}
    (h : t.ccr = (addc a m c).putFlags s.ccr) : SumFlags s t a m c (addc a m c).r := by
  obtain ⟨hv, hc⟩ := addc_flags hw a m c
  rw [SumFlags, ← hv, ← hc, ← isNeg_eq_negative, ← isZero_eq_zero]
  exact flags_putNZVC _ _ _ _ _ _ h

/-- The flags of an 8-bit addition. -/
theorem sumFlagsH_of_ccr {s t : State} {a m : Byte} {c : Bool}
    (h : t.ccr = putHNZVC s.ccr (halfCarry a m (addc a m c).r) (addc a m c).n (addc a m c).z (addc a m c).v (addc a m c).c) :
    SumFlagsH s t a m c (addc a m c).r := by
  obtain ⟨hv, hc⟩ := addc_flags (by decide) a m c
  have hc : (addc a m c).c = decide (256 ≤ wideSum a m c) := hc
  rw [SumFlagsH, ← halfCarry_addc, ← hv, ← hc, ← isNeg_eq_negative, ← isZero_eq_zero]
  exact flags_putHNZVC _ _ _ _ _ _ _ h

/-- The flags of a shift. -/
theorem shiftFlags_of_ccr {w : Nat} {s t : State} {r : BitVec w} {c : Bool}
    (h : t.ccr = (shifted r c).putFlags s.ccr) : ShiftFlags s t r c := by
  rw [ShiftFlags, ← isNeg_eq_negative, ← isZero_eq_zero]
  exact flags_putNZVC _ _ _ _ _ _ h

end Sys2Proof.Machine
end

