-- ==== Sys2Proof/Laws/Memory.lean ====
section
/-! SUPPORT. The laws of memory: what is written reads back, nothing else changes, the canonical form is kept, and no
write changes what is neither memory, page register nor queue. -/

namespace Sys2Proof.Machine

/-! ## The list of cells -/

theorem memGet_memErase_same (m : List Host.Cell) (k : Nat) : memGet (memErase m k) k = unlisted := by
  induction m with
  | nil => rfl
  | cons c m ih => obtain ⟨k', v⟩ := c; by_cases h : k' = k <;> simp [memErase, memGet, h, ih]

theorem memGet_memErase_other (m : List Host.Cell) {k k' : Nat} (h : k' ≠ k) : memGet (memErase m k) k' = memGet m k' := by
  induction m with
  | nil => rfl
  | cons c m ih =>
    obtain ⟨j, v⟩ := c
    by_cases hj : j = k
    · simp [memErase, memGet, hj, ih, Ne.symm h]
    · by_cases hk : j = k' <;> simp [memErase, memGet, hj, hk, ih]
      simp [← hk, hj, memGet]

theorem memGet_memInsert_other (m : List Host.Cell) {k k' : Nat} (v : Byte) (h : k' ≠ k) :
    memGet (memInsert m k v) k' = memGet m k' := by
  induction m with
  | nil => simp [memInsert, memGet, Ne.symm h]
  | cons c m ih =>
    obtain ⟨j, w⟩ := c
    by_cases hlt : k < j
    · simp [memInsert, hlt, memGet, Ne.symm h]
    · simp only [memInsert, if_neg hlt, memGet, ih]

/-- Reading the key that was written. -/
@[simp] theorem memGet_memSet_same (m : List Host.Cell) (k : Nat) (v : Byte) : memGet (memSet m k v) k = v := by
  by_cases hv : v = unlisted
  · simp [memSet, hv, memGet_memErase_same]
  · simp only [memSet, if_neg hv]
    induction m with
    | nil => simp [memErase, memInsert, memGet]
    | cons c m ih =>
      obtain ⟨j, w⟩ := c
      by_cases hj : j = k
      · simpa [memErase, hj] using ih
      · by_cases hlt : k < j <;> simp [memErase, memInsert, memGet, hj, hlt, ih]

/-- Reading another key. -/
theorem memGet_memSet_other (m : List Host.Cell) {k k' : Nat} (v : Byte) (h : k' ≠ k) :
    memGet (memSet m k v) k' = memGet m k' := by
  by_cases hv : v = unlisted
  · simp [memSet, hv, memGet_memErase_other m h]
  · simp [memSet, hv, memGet_memInsert_other _ v h, memGet_memErase_other m h]

/-- Reading any key. -/
theorem memGet_memSet (m : List Host.Cell) (k k' : Nat) (v : Byte) :
    memGet (memSet m k v) k' = if k' = k then v else memGet m k' := by
  by_cases h : k' = k
  · simp [h]
  · simp [h, memGet_memSet_other m v h]

/-! ## The canonical form -/

theorem memWfFrom_mono {lo hi : Nat} (h : lo ≤ hi) : ∀ {m : List Host.Cell}, memWfFrom hi m = true → memWfFrom lo m = true
  | [], _ => rfl
  | (k, v) :: m, hw => by
    simp only [memWfFrom, Bool.and_eq_true, decide_eq_true_eq] at hw ⊢
    exact ⟨⟨by omega, hw.1.2⟩, hw.2⟩

theorem memWfFrom_memErase (k : Nat) : ∀ {m : List Host.Cell} {lo : Nat}, memWfFrom lo m = true →
    memWfFrom lo (memErase m k) = true
  | [], _, h => h
  | (j, v) :: m, lo, h => by
    simp only [memWfFrom, Bool.and_eq_true, decide_eq_true_eq] at h
    by_cases hj : j = k
    · simp only [memErase, if_pos hj]
      exact memWfFrom_memErase k (memWfFrom_mono (by omega) h.2)
    · simp only [memErase, if_neg hj, memWfFrom, Bool.and_eq_true, decide_eq_true_eq]
      exact ⟨h.1, memWfFrom_memErase k h.2⟩

theorem memWfFrom_memInsert {k : Nat} {v : Byte} (hv : v ≠ unlisted) : ∀ {m : List Host.Cell} {lo : Nat}, lo ≤ k →
    memWfFrom lo m = true → (∀ w, (k, w) ∉ m) → memWfFrom lo (memInsert m k v) = true
  | [], lo, hk, _, _ => by simp [memInsert, memWfFrom, hv, hk]
  | (j, w) :: m, lo, hk, h, hn => by
    simp only [memWfFrom, Bool.and_eq_true, decide_eq_true_eq] at h
    by_cases hlt : k < j
    · simp only [memInsert, if_pos hlt, memWfFrom, Bool.and_eq_true, decide_eq_true_eq]
      exact ⟨⟨hk, hv⟩, ⟨by omega, h.1.2⟩, h.2⟩
    · have hne : j ≠ k := by
        intro e
        exact hn w (by simp [e])
      simp only [memInsert, if_neg hlt, memWfFrom, Bool.and_eq_true, decide_eq_true_eq]
      exact ⟨h.1, memWfFrom_memInsert hv (by omega) h.2 fun u hu => hn u (by simp [hu])⟩

theorem not_mem_memErase (k : Nat) (w : Byte) : ∀ m : List Host.Cell, (k, w) ∉ memErase m k
  | [] => by simp [memErase]
  | (j, v) :: m => by
    by_cases hj : j = k
    · simpa [memErase, hj] using not_mem_memErase k w m
    · have h := not_mem_memErase k w m
      simp [memErase, hj, Ne.symm hj, h]

/-- A write keeps the canonical form. -/
theorem Memory.wf_memSet {m : List Host.Cell} (h : Memory.wf m = true) (k : Nat) (v : Byte) :
    Memory.wf (memSet m k v) = true := by
  by_cases hv : v = unlisted
  · simp only [memSet, if_pos hv]
    exact memWfFrom_memErase k h
  · simp only [memSet, if_neg hv]
    exact memWfFrom_memInsert hv (Nat.zero_le k) (memWfFrom_memErase k h) fun w => not_mem_memErase k w m

/-- Memory after reset has the canonical form. -/
theorem Memory.wf_reset : Memory.wf State.reset.mem = true := rfl

/-! ## Writes through the map -/

/-- The parts of the state that the memory map depends on, and that no write but one to a page register changes. -/
theorem locate_congr {s t : State} (hc : t.cfg = s.cfg) (hw : t.windows = s.windows) (hp : t.ppage = s.ppage)
    (hd : t.dpage = s.dpage) (he : t.epage = s.epage) (a : Word) : locate t a = locate s a := by
  simp only [locate, regionTarget, externalBlockAt, externalAddress, pathOf, hc, hw, hp, hd, he]

/-- A note of a store changes the note alone. -/
theorem noteStore_eq (s t : State) (q : Slot) : ∃ st, noteStore s t q = { t with stale := st } := by
  unfold noteStore
  split
  · exact ⟨_, rfl⟩
  · exact ⟨t.stale, rfl⟩

/-- A note of a write changes the note alone. -/
theorem noteStale_eq (s t : State) (g : Target) : ∃ st, noteStale s t g = { t with stale := st } := by
  have page (q : Slot) : ∃ st, noteRemap s (noteStore s t q) = { t with stale := st } := by
    obtain ⟨st, h⟩ := noteStore_eq s t q
    rw [h]
    exact ⟨_, rfl⟩
  rcases g with ⟨k, _ | _⟩ | _ | _ | _ | _ | _
  · exact ⟨t.stale, rfl⟩
  · exact noteStore_eq s t (.cell k)
  · exact page .ppage
  · exact page .dpage
  · exact page .epage
  · exact ⟨t.stale, rfl⟩
  · exact ⟨t.stale, rfl⟩

/-- Everything a write to a target can do: it changes the storage byte, or the page register, and the queue's note. -/
theorem writeTarget_eq (s : State) (g : Target) (v : Byte) : ∃ st, writeTarget s g v = { s with
    mem := (match g with | .cell k true => memSet s.mem k v | _ => s.mem)
    ppage := (match g with | .ppage => pageBits s.cfg.ppageBits v | _ => s.ppage)
    dpage := (match g with | .dpage => v | _ => s.dpage)
    epage := (match g with | .epage => v | _ => s.epage)
    stale := st } := by
  obtain ⟨st, h⟩ := noteStale_eq s (setTarget s v g) g
  refine ⟨st, h.trans ?_⟩
  rcases g with ⟨k, _ | _⟩ | _ | _ | _ | _ | _ <;> rfl

/-- The memory after a write to a target. -/
theorem writeTarget_mem (s : State) (g : Target) (v : Byte) :
    (writeTarget s g v).mem = match g with | .cell k true => memSet s.mem k v | _ => s.mem := by
  obtain ⟨st, h⟩ := writeTarget_eq s g v
  rw [h]

/-- A write to a target keeps the canonical form. -/
theorem Memory.wf_writeTarget {s : State} (h : Memory.wf s.mem = true) (g : Target) (v : Byte) :
    Memory.wf (writeTarget s g v).mem = true := by
  rw [writeTarget_mem]
  split
  · exact Memory.wf_memSet h _ v
  · exact h

/-- A byte write keeps the canonical form. -/
theorem Memory.wf_write8 {s : State} (h : Memory.wf s.mem = true) (a : Word) (v : Byte) :
    Memory.wf (write8 s a v).mem = true := Memory.wf_writeTarget h _ v

/-- A word write keeps the canonical form. -/
theorem Memory.wf_write16 {s : State} (h : Memory.wf s.mem = true) (a v : Word) :
    Memory.wf (write16 s a v).mem = true := Memory.wf_writeTarget (Memory.wf_writeTarget h _ _) _ _

/-! ## What no write changes -/

@[simp] theorem writeTarget_a (s : State) (g : Target) (v : Byte) : (writeTarget s g v).a = s.a := by
  obtain ⟨st, h⟩ := writeTarget_eq s g v
  rw [h]
@[simp] theorem write8_a (s : State) (a : Word) (v : Byte) : (write8 s a v).a = s.a := writeTarget_a s _ v
@[simp] theorem write16_a (s : State) (a v : Word) : (write16 s a v).a = s.a := by simp only [write16, writeTarget_a]
@[simp] theorem writeTarget_b (s : State) (g : Target) (v : Byte) : (writeTarget s g v).b = s.b := by
  obtain ⟨st, h⟩ := writeTarget_eq s g v
  rw [h]
@[simp] theorem write8_b (s : State) (a : Word) (v : Byte) : (write8 s a v).b = s.b := writeTarget_b s _ v
@[simp] theorem write16_b (s : State) (a v : Word) : (write16 s a v).b = s.b := by simp only [write16, writeTarget_b]
@[simp] theorem writeTarget_x (s : State) (g : Target) (v : Byte) : (writeTarget s g v).x = s.x := by
  obtain ⟨st, h⟩ := writeTarget_eq s g v
  rw [h]
@[simp] theorem write8_x (s : State) (a : Word) (v : Byte) : (write8 s a v).x = s.x := writeTarget_x s _ v
@[simp] theorem write16_x (s : State) (a v : Word) : (write16 s a v).x = s.x := by simp only [write16, writeTarget_x]
@[simp] theorem writeTarget_y (s : State) (g : Target) (v : Byte) : (writeTarget s g v).y = s.y := by
  obtain ⟨st, h⟩ := writeTarget_eq s g v
  rw [h]
@[simp] theorem write8_y (s : State) (a : Word) (v : Byte) : (write8 s a v).y = s.y := writeTarget_y s _ v
@[simp] theorem write16_y (s : State) (a v : Word) : (write16 s a v).y = s.y := by simp only [write16, writeTarget_y]
@[simp] theorem writeTarget_sp (s : State) (g : Target) (v : Byte) : (writeTarget s g v).sp = s.sp := by
  obtain ⟨st, h⟩ := writeTarget_eq s g v
  rw [h]
@[simp] theorem write8_sp (s : State) (a : Word) (v : Byte) : (write8 s a v).sp = s.sp := writeTarget_sp s _ v
@[simp] theorem write16_sp (s : State) (a v : Word) : (write16 s a v).sp = s.sp := by simp only [write16, writeTarget_sp]
@[simp] theorem writeTarget_pc (s : State) (g : Target) (v : Byte) : (writeTarget s g v).pc = s.pc := by
  obtain ⟨st, h⟩ := writeTarget_eq s g v
  rw [h]
@[simp] theorem write8_pc (s : State) (a : Word) (v : Byte) : (write8 s a v).pc = s.pc := writeTarget_pc s _ v
@[simp] theorem write16_pc (s : State) (a v : Word) : (write16 s a v).pc = s.pc := by simp only [write16, writeTarget_pc]
@[simp] theorem writeTarget_ccr (s : State) (g : Target) (v : Byte) : (writeTarget s g v).ccr = s.ccr := by
  obtain ⟨st, h⟩ := writeTarget_eq s g v
  rw [h]
@[simp] theorem write8_ccr (s : State) (a : Word) (v : Byte) : (write8 s a v).ccr = s.ccr := writeTarget_ccr s _ v
@[simp] theorem write16_ccr (s : State) (a v : Word) : (write16 s a v).ccr = s.ccr := by simp only [write16, writeTarget_ccr]
@[simp] theorem writeTarget_tmp1 (s : State) (g : Target) (v : Byte) : (writeTarget s g v).tmp1 = s.tmp1 := by
  obtain ⟨st, h⟩ := writeTarget_eq s g v
  rw [h]
@[simp] theorem write8_tmp1 (s : State) (a : Word) (v : Byte) : (write8 s a v).tmp1 = s.tmp1 := writeTarget_tmp1 s _ v
@[simp] theorem write16_tmp1 (s : State) (a v : Word) : (write16 s a v).tmp1 = s.tmp1 := by simp only [write16, writeTarget_tmp1]
@[simp] theorem writeTarget_tmp2 (s : State) (g : Target) (v : Byte) : (writeTarget s g v).tmp2 = s.tmp2 := by
  obtain ⟨st, h⟩ := writeTarget_eq s g v
  rw [h]
@[simp] theorem write8_tmp2 (s : State) (a : Word) (v : Byte) : (write8 s a v).tmp2 = s.tmp2 := writeTarget_tmp2 s _ v
@[simp] theorem write16_tmp2 (s : State) (a v : Word) : (write16 s a v).tmp2 = s.tmp2 := by simp only [write16, writeTarget_tmp2]
@[simp] theorem writeTarget_tmp3 (s : State) (g : Target) (v : Byte) : (writeTarget s g v).tmp3 = s.tmp3 := by
  obtain ⟨st, h⟩ := writeTarget_eq s g v
  rw [h]
@[simp] theorem write8_tmp3 (s : State) (a : Word) (v : Byte) : (write8 s a v).tmp3 = s.tmp3 := writeTarget_tmp3 s _ v
@[simp] theorem write16_tmp3 (s : State) (a v : Word) : (write16 s a v).tmp3 = s.tmp3 := by simp only [write16, writeTarget_tmp3]
@[simp] theorem writeTarget_windows (s : State) (g : Target) (v : Byte) : (writeTarget s g v).windows = s.windows := by
  obtain ⟨st, h⟩ := writeTarget_eq s g v
  rw [h]
@[simp] theorem write8_windows (s : State) (a : Word) (v : Byte) : (write8 s a v).windows = s.windows := writeTarget_windows s _ v
@[simp] theorem write16_windows (s : State) (a v : Word) : (write16 s a v).windows = s.windows := by simp only [write16, writeTarget_windows]
@[simp] theorem writeTarget_iDelay (s : State) (g : Target) (v : Byte) : (writeTarget s g v).iDelay = s.iDelay := by
  obtain ⟨st, h⟩ := writeTarget_eq s g v
  rw [h]
@[simp] theorem write8_iDelay (s : State) (a : Word) (v : Byte) : (write8 s a v).iDelay = s.iDelay := writeTarget_iDelay s _ v
@[simp] theorem write16_iDelay (s : State) (a v : Word) : (write16 s a v).iDelay = s.iDelay := by simp only [write16, writeTarget_iDelay]
@[simp] theorem writeTarget_run (s : State) (g : Target) (v : Byte) : (writeTarget s g v).run = s.run := by
  obtain ⟨st, h⟩ := writeTarget_eq s g v
  rw [h]
@[simp] theorem write8_run (s : State) (a : Word) (v : Byte) : (write8 s a v).run = s.run := writeTarget_run s _ v
@[simp] theorem write16_run (s : State) (a v : Word) : (write16 s a v).run = s.run := by simp only [write16, writeTarget_run]
@[simp] theorem writeTarget_progress (s : State) (g : Target) (v : Byte) : (writeTarget s g v).progress = s.progress := by
  obtain ⟨st, h⟩ := writeTarget_eq s g v
  rw [h]
@[simp] theorem write8_progress (s : State) (a : Word) (v : Byte) : (write8 s a v).progress = s.progress := writeTarget_progress s _ v
@[simp] theorem write16_progress (s : State) (a v : Word) : (write16 s a v).progress = s.progress := by simp only [write16, writeTarget_progress]
@[simp] theorem writeTarget_outputs (s : State) (g : Target) (v : Byte) : (writeTarget s g v).outputs = s.outputs := by
  obtain ⟨st, h⟩ := writeTarget_eq s g v
  rw [h]
@[simp] theorem write8_outputs (s : State) (a : Word) (v : Byte) : (write8 s a v).outputs = s.outputs := writeTarget_outputs s _ v
@[simp] theorem write16_outputs (s : State) (a v : Word) : (write16 s a v).outputs = s.outputs := by simp only [write16, writeTarget_outputs]
@[simp] theorem writeTarget_consumed (s : State) (g : Target) (v : Byte) : (writeTarget s g v).consumed = s.consumed := by
  obtain ⟨st, h⟩ := writeTarget_eq s g v
  rw [h]
@[simp] theorem write8_consumed (s : State) (a : Word) (v : Byte) : (write8 s a v).consumed = s.consumed := writeTarget_consumed s _ v
@[simp] theorem write16_consumed (s : State) (a v : Word) : (write16 s a v).consumed = s.consumed := by simp only [write16, writeTarget_consumed]
@[simp] theorem writeTarget_suspended (s : State) (g : Target) (v : Byte) : (writeTarget s g v).suspended = s.suspended := by
  obtain ⟨st, h⟩ := writeTarget_eq s g v
  rw [h]
@[simp] theorem write8_suspended (s : State) (a : Word) (v : Byte) : (write8 s a v).suspended = s.suspended := writeTarget_suspended s _ v
@[simp] theorem write16_suspended (s : State) (a v : Word) : (write16 s a v).suspended = s.suspended := by simp only [write16, writeTarget_suspended]
@[simp] theorem writeTarget_pins (s : State) (g : Target) (v : Byte) : (writeTarget s g v).pins = s.pins := by
  obtain ⟨st, h⟩ := writeTarget_eq s g v
  rw [h]
@[simp] theorem write8_pins (s : State) (a : Word) (v : Byte) : (write8 s a v).pins = s.pins := writeTarget_pins s _ v
@[simp] theorem write16_pins (s : State) (a v : Word) : (write16 s a v).pins = s.pins := by simp only [write16, writeTarget_pins]
@[simp] theorem writeTarget_bdm (s : State) (g : Target) (v : Byte) : (writeTarget s g v).bdm = s.bdm := by
  obtain ⟨st, h⟩ := writeTarget_eq s g v
  rw [h]
@[simp] theorem write8_bdm (s : State) (a : Word) (v : Byte) : (write8 s a v).bdm = s.bdm := writeTarget_bdm s _ v
@[simp] theorem write16_bdm (s : State) (a v : Word) : (write16 s a v).bdm = s.bdm := by simp only [write16, writeTarget_bdm]
@[simp] theorem writeTarget_schedule (s : State) (g : Target) (v : Byte) : (writeTarget s g v).schedule = s.schedule := by
  obtain ⟨st, h⟩ := writeTarget_eq s g v
  rw [h]
@[simp] theorem write8_schedule (s : State) (a : Word) (v : Byte) : (write8 s a v).schedule = s.schedule := writeTarget_schedule s _ v
@[simp] theorem write16_schedule (s : State) (a v : Word) : (write16 s a v).schedule = s.schedule := by simp only [write16, writeTarget_schedule]
@[simp] theorem writeTarget_budget (s : State) (g : Target) (v : Byte) : (writeTarget s g v).budget = s.budget := by
  obtain ⟨st, h⟩ := writeTarget_eq s g v
  rw [h]
@[simp] theorem write8_budget (s : State) (a : Word) (v : Byte) : (write8 s a v).budget = s.budget := writeTarget_budget s _ v
@[simp] theorem write16_budget (s : State) (a v : Word) : (write16 s a v).budget = s.budget := by simp only [write16, writeTarget_budget]
@[simp] theorem writeTarget_free (s : State) (g : Target) (v : Byte) : (writeTarget s g v).free = s.free := by
  obtain ⟨st, h⟩ := writeTarget_eq s g v
  rw [h]
@[simp] theorem write8_free (s : State) (a : Word) (v : Byte) : (write8 s a v).free = s.free := writeTarget_free s _ v
@[simp] theorem write16_free (s : State) (a v : Word) : (write16 s a v).free = s.free := by simp only [write16, writeTarget_free]
@[simp] theorem writeTarget_cfg (s : State) (g : Target) (v : Byte) : (writeTarget s g v).cfg = s.cfg := by
  obtain ⟨st, h⟩ := writeTarget_eq s g v
  rw [h]
@[simp] theorem write8_cfg (s : State) (a : Word) (v : Byte) : (write8 s a v).cfg = s.cfg := writeTarget_cfg s _ v
@[simp] theorem write16_cfg (s : State) (a v : Word) : (write16 s a v).cfg = s.cfg := by simp only [write16, writeTarget_cfg]
@[simp] theorem writeTarget_stores (s : State) (g : Target) (v : Byte) : (writeTarget s g v).stores = s.stores := by
  obtain ⟨st, h⟩ := writeTarget_eq s g v
  rw [h]
@[simp] theorem write8_stores (s : State) (a : Word) (v : Byte) : (write8 s a v).stores = s.stores := writeTarget_stores s _ v
@[simp] theorem write16_stores (s : State) (a v : Word) : (write16 s a v).stores = s.stores := by simp only [write16, writeTarget_stores]
@[simp] theorem writeTarget_earlier (s : State) (g : Target) (v : Byte) : (writeTarget s g v).earlier = s.earlier := by
  obtain ⟨st, h⟩ := writeTarget_eq s g v
  rw [h]
@[simp] theorem write8_earlier (s : State) (a : Word) (v : Byte) : (write8 s a v).earlier = s.earlier := writeTarget_earlier s _ v
@[simp] theorem write16_earlier (s : State) (a v : Word) : (write16 s a v).earlier = s.earlier := by simp only [write16, writeTarget_earlier]

/-! ## Stores of the CPU: a write, and the store remembered -/

@[simp] theorem store8_stores (s : State) (a : Word) (v : Byte) : (store8 s a v).stores = .byte a v :: s.stores := by
  simp [store8, logStore]
@[simp] theorem store16_stores (s : State) (a v : Word) : (store16 s a v).stores = .word a v :: s.stores := by
  simp [store16, logStore]
@[simp] theorem store8_a (s : State) (a : Word) (v : Byte) : (store8 s a v).a = s.a := write8_a s a v
@[simp] theorem store16_a (s : State) (a v : Word) : (store16 s a v).a = s.a := write16_a s a v
@[simp] theorem store8_b (s : State) (a : Word) (v : Byte) : (store8 s a v).b = s.b := write8_b s a v
@[simp] theorem store16_b (s : State) (a v : Word) : (store16 s a v).b = s.b := write16_b s a v
@[simp] theorem store8_x (s : State) (a : Word) (v : Byte) : (store8 s a v).x = s.x := write8_x s a v
@[simp] theorem store16_x (s : State) (a v : Word) : (store16 s a v).x = s.x := write16_x s a v
@[simp] theorem store8_y (s : State) (a : Word) (v : Byte) : (store8 s a v).y = s.y := write8_y s a v
@[simp] theorem store16_y (s : State) (a v : Word) : (store16 s a v).y = s.y := write16_y s a v
@[simp] theorem store8_sp (s : State) (a : Word) (v : Byte) : (store8 s a v).sp = s.sp := write8_sp s a v
@[simp] theorem store16_sp (s : State) (a v : Word) : (store16 s a v).sp = s.sp := write16_sp s a v
@[simp] theorem store8_pc (s : State) (a : Word) (v : Byte) : (store8 s a v).pc = s.pc := write8_pc s a v
@[simp] theorem store16_pc (s : State) (a v : Word) : (store16 s a v).pc = s.pc := write16_pc s a v
@[simp] theorem store8_ccr (s : State) (a : Word) (v : Byte) : (store8 s a v).ccr = s.ccr := write8_ccr s a v
@[simp] theorem store16_ccr (s : State) (a v : Word) : (store16 s a v).ccr = s.ccr := write16_ccr s a v
@[simp] theorem store8_tmp1 (s : State) (a : Word) (v : Byte) : (store8 s a v).tmp1 = s.tmp1 := write8_tmp1 s a v
@[simp] theorem store16_tmp1 (s : State) (a v : Word) : (store16 s a v).tmp1 = s.tmp1 := write16_tmp1 s a v
@[simp] theorem store8_tmp2 (s : State) (a : Word) (v : Byte) : (store8 s a v).tmp2 = s.tmp2 := write8_tmp2 s a v
@[simp] theorem store16_tmp2 (s : State) (a v : Word) : (store16 s a v).tmp2 = s.tmp2 := write16_tmp2 s a v
@[simp] theorem store8_tmp3 (s : State) (a : Word) (v : Byte) : (store8 s a v).tmp3 = s.tmp3 := write8_tmp3 s a v
@[simp] theorem store16_tmp3 (s : State) (a v : Word) : (store16 s a v).tmp3 = s.tmp3 := write16_tmp3 s a v
@[simp] theorem store8_windows (s : State) (a : Word) (v : Byte) : (store8 s a v).windows = s.windows := write8_windows s a v
@[simp] theorem store16_windows (s : State) (a v : Word) : (store16 s a v).windows = s.windows := write16_windows s a v
@[simp] theorem store8_iDelay (s : State) (a : Word) (v : Byte) : (store8 s a v).iDelay = s.iDelay := write8_iDelay s a v
@[simp] theorem store16_iDelay (s : State) (a v : Word) : (store16 s a v).iDelay = s.iDelay := write16_iDelay s a v
@[simp] theorem store8_run (s : State) (a : Word) (v : Byte) : (store8 s a v).run = s.run := write8_run s a v
@[simp] theorem store16_run (s : State) (a v : Word) : (store16 s a v).run = s.run := write16_run s a v
@[simp] theorem store8_progress (s : State) (a : Word) (v : Byte) : (store8 s a v).progress = s.progress := write8_progress s a v
@[simp] theorem store16_progress (s : State) (a v : Word) : (store16 s a v).progress = s.progress := write16_progress s a v
@[simp] theorem store8_outputs (s : State) (a : Word) (v : Byte) : (store8 s a v).outputs = s.outputs := write8_outputs s a v
@[simp] theorem store16_outputs (s : State) (a v : Word) : (store16 s a v).outputs = s.outputs := write16_outputs s a v
@[simp] theorem store8_consumed (s : State) (a : Word) (v : Byte) : (store8 s a v).consumed = s.consumed := write8_consumed s a v
@[simp] theorem store16_consumed (s : State) (a v : Word) : (store16 s a v).consumed = s.consumed := write16_consumed s a v
@[simp] theorem store8_suspended (s : State) (a : Word) (v : Byte) : (store8 s a v).suspended = s.suspended := write8_suspended s a v
@[simp] theorem store16_suspended (s : State) (a v : Word) : (store16 s a v).suspended = s.suspended := write16_suspended s a v
@[simp] theorem store8_pins (s : State) (a : Word) (v : Byte) : (store8 s a v).pins = s.pins := write8_pins s a v
@[simp] theorem store16_pins (s : State) (a v : Word) : (store16 s a v).pins = s.pins := write16_pins s a v
@[simp] theorem store8_bdm (s : State) (a : Word) (v : Byte) : (store8 s a v).bdm = s.bdm := write8_bdm s a v
@[simp] theorem store16_bdm (s : State) (a v : Word) : (store16 s a v).bdm = s.bdm := write16_bdm s a v
@[simp] theorem store8_schedule (s : State) (a : Word) (v : Byte) : (store8 s a v).schedule = s.schedule := write8_schedule s a v
@[simp] theorem store16_schedule (s : State) (a v : Word) : (store16 s a v).schedule = s.schedule := write16_schedule s a v
@[simp] theorem store8_budget (s : State) (a : Word) (v : Byte) : (store8 s a v).budget = s.budget := write8_budget s a v
@[simp] theorem store16_budget (s : State) (a v : Word) : (store16 s a v).budget = s.budget := write16_budget s a v
@[simp] theorem store8_free (s : State) (a : Word) (v : Byte) : (store8 s a v).free = s.free := write8_free s a v
@[simp] theorem store16_free (s : State) (a v : Word) : (store16 s a v).free = s.free := write16_free s a v
@[simp] theorem store8_cfg (s : State) (a : Word) (v : Byte) : (store8 s a v).cfg = s.cfg := write8_cfg s a v
@[simp] theorem store16_cfg (s : State) (a v : Word) : (store16 s a v).cfg = s.cfg := write16_cfg s a v
@[simp] theorem store8_earlier (s : State) (a : Word) (v : Byte) : (store8 s a v).earlier = s.earlier := write8_earlier s a v
@[simp] theorem store16_earlier (s : State) (a v : Word) : (store16 s a v).earlier = s.earlier := write16_earlier s a v

/-- A store of a byte keeps the canonical form. -/
theorem Memory.wf_store8 {s : State} (h : Memory.wf s.mem = true) (a : Word) (v : Byte) :
    Memory.wf (store8 s a v).mem = true := Memory.wf_write8 h a v

/-- A store of a word keeps the canonical form. -/
theorem Memory.wf_store16 {s : State} (h : Memory.wf s.mem = true) (a v : Word) :
    Memory.wf (store16 s a v).mem = true := Memory.wf_write16 h a v

/-- Stores made again keep the canonical form. -/
theorem Memory.wf_applyStores {s : State} (h : Memory.wf s.mem = true) (es : List Store) :
    Memory.wf (applyStores s es).mem = true := by
  induction es generalizing s with
  | nil => exact h
  | cons e es ih =>
    cases e with
    | byte a v => exact ih (s := write8 s a v) (Memory.wf_write8 h a v)
    | word a v => exact ih (s := write16 s a v) (Memory.wf_write16 h a v)
    | page v => exact ih (s := setPpage s v) h

end Sys2Proof.Machine
end

