-- ==== Sys2Proof/Laws/Ops.lean ====
section
/-! SUPPORT. One lemma for each shared operation over stack, exceptions, page register, operands and BDM: everything
it can do, so that no proof unfolds it. -/

namespace Sys2Proof.Machine

/-! ## Memory as the statements speak of it -/

/-- What a write can change: memory, the page registers, the queue's note and, of the CPU, the stores remembered. -/
theorem onlyStores_writeTarget (s : State) (g : Target) (v : Byte) : OnlyStores s (writeTarget s g v) := by
  obtain ⟨st, h⟩ := writeTarget_eq s g v
  rw [OnlyStores, h]

theorem OnlyStores.refl (s : State) : OnlyStores s s := rfl

theorem OnlyStores.trans {s t u : State} (h : OnlyStores s t) (g : OnlyStores t u) : OnlyStores s u := by
  rw [OnlyStores] at *
  rw [h] at g
  exact g

/-- `OnlyStores`, field by field. -/
theorem onlyStores_iff (u t : State) : OnlyStores u t ↔
    (t.a = u.a ∧ t.b = u.b ∧ t.x = u.x ∧ t.y = u.y ∧ t.sp = u.sp ∧ t.pc = u.pc ∧ t.ccr = u.ccr) ∧
    (t.tmp1 = u.tmp1 ∧ t.tmp2 = u.tmp2 ∧ t.tmp3 = u.tmp3 ∧ t.windows = u.windows ∧ t.iDelay = u.iDelay ∧ t.run = u.run) ∧
    t.progress = u.progress ∧ t.outputs = u.outputs ∧ t.consumed = u.consumed ∧
    t.suspended = u.suspended ∧ t.pins = u.pins ∧ t.bdm = u.bdm ∧ t.schedule = u.schedule ∧
    t.budget = u.budget ∧ t.earlier = u.earlier ∧ t.free = u.free ∧ t.cfg = u.cfg := by
  cases u
  cases t
  simp only [OnlyStores, State.mk.injEq]
  tauto

/-- A byte write. -/
theorem onlyStores_write8 (s : State) (a : Word) (v : Byte) : OnlyStores s (write8 s a v) := onlyStores_writeTarget s _ v

/-- A word write. -/
theorem onlyStores_write16 (s : State) (a v : Word) : OnlyStores s (write16 s a v) :=
  (onlyStores_writeTarget s _ _).trans (onlyStores_writeTarget _ _ _)

/-- A byte stored by the CPU. -/
theorem onlyStores_store8 (s : State) (a : Word) (v : Byte) : OnlyStores s (store8 s a v) :=
  (onlyStores_write8 s a v).trans rfl

/-- A word stored by the CPU. -/
theorem onlyStores_store16 (s : State) (a v : Word) : OnlyStores s (store16 s a v) :=
  (onlyStores_write16 s a v).trans rfl

/-- Where an access goes depends on the parameters, the windows and the page registers alone. -/
theorem byteAt_congr {s t : State} (hm : t.mem = s.mem) (hc : t.cfg = s.cfg) (hw : t.windows = s.windows)
    (hp : t.ppage = s.ppage) (hd : t.dpage = s.dpage) (he : t.epage = s.epage) (x : Word) : byteAt t x = byteAt s x := by
  rw [byteAt, byteAt, locate_congr hc hw hp hd he]
  cases locate s x <;> simp [targetByte, hm, hp, hd, he]

/-- A change of registers and flags changes no read. -/
theorem readsSame_of {s t : State} (hm : t.mem = s.mem) (hc : t.cfg = s.cfg) (hw : t.windows = s.windows)
    (hp : t.ppage = s.ppage) (hd : t.dpage = s.dpage) (he : t.epage = s.epage) : ReadsSame s t :=
  fun x => byteAt_congr hm hc hw hp hd he x

/-- A read that no BDM command has come after sees the state as it is. -/
theorem seenBy_none {s : State} (h : s.earlier = none) (d : Draw) : seenBy s d = s := by simp only [seenBy, h]

/-- What a read sees: the state, or the state with memory and the page registers as they were. -/
theorem seenBy_eq (s : State) (d : Draw) : seenBy s d = s ∨ ∃ e, s.earlier = some e ∧ accessRank d < e.reads ∧
    seenBy s d = { s with mem := e.mem, ppage := e.ppage, dpage := e.dpage, epage := e.epage } := by
  unfold seenBy
  split
  · split
    · exact .inr ⟨_, ‹_›, ‹_›, rfl⟩
    · exact .inl rfl
  · exact .inl rfl

/-- A read without an early one. -/
theorem read8_none {s : State} (h : s.earlier = none) (d : Draw) (x : Word) :
    read8 s d x = (byteAt s x).getD (Config.freeByte s.free d x) := by rw [read8, seenBy_none h]

/-- The same for a byte read, free values included. -/
theorem read8_congr {s t : State} (hm : t.mem = s.mem) (hc : t.cfg = s.cfg) (hw : t.windows = s.windows)
    (hp : t.ppage = s.ppage) (hd : t.dpage = s.dpage) (he : t.epage = s.epage) (hf : t.free = s.free)
    (hr : t.earlier = s.earlier) (d : Draw) (x : Word) : read8 t d x = read8 s d x := by
  have h : byteAt (seenBy t d) x = byteAt (seenBy s d) x := by
    simp only [seenBy, hr]
    split
    · split
      · apply byteAt_congr <;> first | rfl | exact hc | exact hw
      · exact byteAt_congr hm hc hw hp hd he x
    · exact byteAt_congr hm hc hw hp hd he x
  rw [read8, read8, h, hf]

/-- The same for a word read. -/
theorem read16_congr {s t : State} (hm : t.mem = s.mem) (hc : t.cfg = s.cfg) (hw : t.windows = s.windows)
    (hp : t.ppage = s.ppage) (hd : t.dpage = s.dpage) (he : t.epage = s.epage) (hf : t.free = s.free)
    (hr : t.earlier = s.earlier) (d : Draw) (x : Word) : read16 t d x = read16 s d x := by
  rw [read16, read16, read8_congr hm hc hw hp hd he hf hr, read8_congr hm hc hw hp hd he hf hr]

/-- The target that is written, read back. -/
theorem targetByte_writeTarget_same {s : State} {k : Nat} (v : Byte) :
    targetByte (writeTarget s (.cell k true) v) (.cell k true) = some v := by
  simp [targetByte, writeTarget_mem]

/-! ## Page register -/

/-- What CALL and RTC write. -/
theorem writePpage_eq (s : State) (v : Byte) : writePpage s v =
    { s with ppage := if s.cfg.ppageBits = 0 then s.ppage else pageBits s.cfg.ppageBits v
             stores := if s.cfg.ppageBits = 0 then s.stores else .page v :: s.stores } := by
  unfold writePpage
  split <;> rfl

/-- PPAGE keeps the bits that exist. -/
theorem pageBits_lt (bits : Nat) (v : Byte) : (pageBits bits v).toNat < 2 ^ bits := by
  rw [pageBits, BitVec.toNat_ofNat]
  exact Nat.lt_of_le_of_lt (Nat.mod_le _ _) (Nat.mod_lt _ (Nat.two_pow_pos bits))

/-! ## Stack -/

/-- A push of a byte: SP one lower, and a byte written there. -/
theorem push8_eq (s : State) (v : Byte) : push8 s v = store8 (s.setSp (s.sp - 1)) (s.sp - 1) v := rfl

/-- A push of a word: SP two lower, and a word written there. -/
theorem push16_eq (s : State) (v : Word) : push16 s v = store16 (s.setSp (s.sp - 2)) (s.sp - 2) v := rfl

@[simp] theorem push8_sp (s : State) (v : Byte) : (push8 s v).sp = s.sp - 1 := by simp [push8_eq]
@[simp] theorem push16_sp (s : State) (v : Word) : (push16 s v).sp = s.sp - 2 := by simp [push16_eq]

/-- What a push of a byte can change beside SP. -/
theorem onlyStores_push8 (s : State) (v : Byte) : OnlyStores { s with sp := s.sp - 1 } (push8 s v) :=
  onlyStores_store8 _ _ _

/-- What a push of a word can change beside SP. -/
theorem onlyStores_push16 (s : State) (v : Word) : OnlyStores { s with sp := s.sp - 2 } (push16 s v) :=
  onlyStores_store16 _ _ _

/-- A push keeps the canonical form of memory. -/
theorem Memory.wf_push8 {s : State} (h : Memory.wf s.mem = true) (v : Byte) : Memory.wf (push8 s v).mem = true :=
  Memory.wf_store8 (s := s.setSp (s.sp - 1)) h _ _

theorem Memory.wf_push16 {s : State} (h : Memory.wf s.mem = true) (v : Word) : Memory.wf (push16 s v).mem = true :=
  Memory.wf_store16 (s := s.setSp (s.sp - 2)) h _ _

/-! ## Exceptions -/

/-- The frame: SP is 9 lower, and beside memory nothing else changes. -/
theorem onlyStores_pushFrame (s : State) (rtn : Word) : OnlyStores { s with sp := s.sp - 9 } (pushFrame s rtn) := by
  have e : ∀ w : Word, w - 2#16 - 2#16 - 2#16 - 2#16 - 1#16 = w - 9#16 := fun w => by bv_omega
  rw [onlyStores_iff]
  simp [pushFrame, push16_eq, push8_eq, e]

@[simp] theorem pushFrame_sp (s : State) (rtn : Word) : (pushFrame s rtn).sp = s.sp - 9 := by rw [onlyStores_pushFrame s rtn]

theorem Memory.wf_pushFrame {s : State} (h : Memory.wf s.mem = true) (rtn : Word) : Memory.wf (pushFrame s rtn).mem = true :=
  Memory.wf_push8 (Memory.wf_push16 (Memory.wf_push16 (Memory.wf_push16 (Memory.wf_push16 h _) _) _) _) _

/-- The masks after entry. -/
theorem ccrIs_maskInterrupts (s : State) (isXirq : Bool) :
    CcrIs (maskInterrupts s isXirq) s.flagS (s.flagX || isXirq) s.flagH true s.flagN s.flagZ s.flagV s.flagC := by
  cases isXirq <;> simp [CcrIs, maskInterrupts, State.flagS, State.flagX, State.flagH, State.flagI, State.flagN,
    State.flagZ, State.flagV, State.flagC]

/-- Taking an exception: the vector read first, the frame pushed, the masks set, the temporaries lost, the queue
refilled. -/
theorem takeException_eq (s : State) (vector rtn : Word) (isXirq : Bool) : takeException s vector rtn isXirq =
    { dropTemporaries (pushFrame s rtn) with
      ccr := (maskInterrupts s isXirq).ccr, pc := read16 s .vector vector, stale := [] } := by
  have h : (pushFrame s rtn).ccr = s.ccr := by rw [onlyStores_pushFrame s rtn]
  cases isXirq <;> simp [takeException, jump, maskInterrupts, dropTemporaries, State.setCcr, h]

/-- Returning from an exception, field by field. -/
theorem returnFromException_eq (s : State) : returnFromException s = { s with
    ccr := protectX s.ccr (read8 s .stack s.sp)
    b := read8 s .stack2 (s.sp + 1)
    a := read8 s .stack2 (s.sp + 2)
    x := read16 s .stack3 (s.sp + 3)
    y := read16 s .stack5 (s.sp + 5)
    pc := read16 s .stack4 (s.sp + 7)
    sp := s.sp + 9
    stale := [] } := rfl

/-- Entering a handler for which the frame is stacked already. -/
theorem enterHandler_eq (s : State) (vector : Word) (isXirq : Bool) : enterHandler s vector isXirq =
    { dropTemporaries s with
      run := .running, ccr := (maskInterrupts s isXirq).ccr, pc := read16 s .vector vector, stale := [] } := by
  cases isXirq <;> rfl

/-! ## Background debug mode -/

/-- Activation of BDM with ENBDM = 1. -/
theorem enterBdm_enabled {s : State} (h : bdmEnabled s = true) (tmp2 : Word) : enterBdm s tmp2 = { s with
    tmp2 := tmp2
    pc := substituteVector s
    stale := []
    run := .bdmActive
    bdm := { s.bdm with ccr := s.ccr, request := false, status := putBit (putBit s.bdm.status 6 true) 5 false } } := by
  have h' : s.bdm.status.getLsbD 7 = true := h
  simp only [enterBdm, bdmEnabled, h', if_true, jump]

/-- Activation of BDM with ENBDM = 0: the program goes on. -/
theorem enterBdm_disabled {s : State} (h : bdmEnabled s = false) (tmp2 : Word) : enterBdm s tmp2 = { s with
    tmp2 := tmp2
    pc := tmp2
    stale := []
    bdm := { s.bdm with ccr := s.ccr, request := false } } := by
  have h' : s.bdm.status.getLsbD 7 = false := h
  simp only [enterBdm, bdmEnabled, h', if_false, Bool.false_eq_true, jump]

/-- A write with the BDM resources in the map: the BDM registers, or what a write can change. -/
theorem writeMapTarget_eq (s : State) (g : MapTarget) (v : Byte) :
    OnlyStores { s with bdm := (writeMapTarget s g v).bdm } (writeMapTarget s g v) := by
  cases g with
  | user t => simpa [writeMapTarget] using onlyStores_writeTarget s t v
  | bdm a =>
    simp only [writeMapTarget, writeBdmResource, OnlyStores]
    repeat' split
    all_goals rfl

/-- Below the BDM resources the two maps agree. -/
theorem locateInMap_below {a : Word} (h : a < 0xFF00) (s : State) : locateInMap s a = .user (locate s a) := by
  simp only [locateInMap, if_pos h]

/-- So do the reads through them. -/
theorem read8InMap_below {a : Word} (h : a < 0xFF00) (s : State) (d : Draw) : read8InMap s d a = read8 s d a := by
  simp only [read8InMap, locateInMap_below h]

/-- A write with the BDM resources in the map keeps the canonical form. -/
theorem Memory.wf_writeMapTarget {s : State} (h : Memory.wf s.mem = true) (g : MapTarget) (v : Byte) :
    Memory.wf (writeMapTarget s g v).mem = true := by
  cases g with
  | user t => exact Memory.wf_writeTarget h t v
  | bdm a =>
    simp only [writeMapTarget, writeBdmResource]
    repeat' split
    all_goals exact h

/-- A byte that storage or a page register keeps has one slot under all its addresses. -/
theorem slotAt_cell {s : State} {a : Word} {k : Nat} : slotAt s a = .cell k ↔ keyAt s a = some k := by
  unfold slotAt keyAt
  split <;> simp_all

/-! ## REV and REVW: the records of what they have read and written -/

/-- The entry of REV or REVW changes the record alone; where it resumes none it starts an empty one. -/
theorem enterRules_eq (s : State) : enterRules s =
    { s with outputs := (enterRules s).outputs, consumed := (enterRules s).consumed,
             suspended := (enterRules s).suspended } := by
  unfold enterRules
  split <;> rfl

theorem enterRules_fresh {s : State} (h : ∀ r ∈ s.suspended, resumesRecord s r = false) :
    enterRules s = { s with outputs := [], consumed := [] } := by
  have e : ownRecord s = none := by
    simp only [ownRecord, List.find?_eq_none]
    exact fun r hr => by simp [h r hr]
  simp only [enterRules, e]

/-- What an interrupted REV or REVW has left is what its resumption takes up. -/
theorem enterRules_suspendRules {s : State} (h : s.progress = .rev ∨ s.progress = .revw) :
    enterRules { suspendRules s with pc := s.pc + 2 } = { s with pc := s.pc + 2 } := by
  simp [suspendRules, h, enterRules, ownRecord, resumesRecord, State.flagV]

/-- A pass that finishes the instruction is the last. -/
theorem ruleLoop_finished {pass : State → State} {s : State} (ho : ruleListOverlap s = false)
    (h : (pass s).progress = .none) (n : Nat) : ruleLoop pass (n + 1) s = pass s := by simp [ruleLoop, ho, h]

theorem wavLoop_finished {s : State} (h : (wavPass s).progress = .none) (n : Nat) : wavLoop (n + 1) s = wavPass s := by
  simp [wavLoop, h]

/-! ## Operands: an addressing mode changes X, Y and SP at most -/

/-- `t` is `s` but for X, Y and SP. -/
def OnlyIndexes (s t : State) : Prop := t = { s with x := t.x, y := t.y, sp := t.sp }

theorem onlyIndexes_setAreg (s : State) (v : Word) (r : AReg) : OnlyIndexes s (setAreg s v r) := by cases r <;> rfl

theorem onlyIndexes_idxUpdate (s : State) (m : Idx) : OnlyIndexes s (idxUpdate s m) := by
  cases m with
  | auto r post n => exact onlyIndexes_setAreg s _ r
  | off5 r n => rfl
  | acc r o => rfl

theorem onlyIndexes_idxXUpdate (s : State) (m : IdxX) : OnlyIndexes s (idxXUpdate s m) := by
  cases m with
  | idx i => exact onlyIndexes_idxUpdate s i
  | off9 r n => rfl
  | off16 r n => rfl

theorem onlyIndexes_idxIUpdate (s : State) (m : IdxI) : OnlyIndexes s (idxIUpdate s m) := by
  cases m with
  | direct m => exact onlyIndexes_idxXUpdate s m
  | ind16 r n => rfl
  | indD r => rfl

theorem onlyIndexes_src8Update (s : State) (o : Src8) : OnlyIndexes s (src8Update s o) := by
  cases o with
  | ix m => exact onlyIndexes_idxIUpdate s m
  | imm v => rfl
  | dir d => rfl
  | ext a => rfl

theorem onlyIndexes_src16Update (s : State) (o : Src16) : OnlyIndexes s (src16Update s o) := by
  cases o with
  | ix m => exact onlyIndexes_idxIUpdate s m
  | imm v => rfl
  | dir d => rfl
  | ext a => rfl

theorem onlyIndexes_mem3Update (s : State) (m : Mem3) : OnlyIndexes s (mem3Update s m) := by
  cases m with
  | ix m => exact onlyIndexes_idxIUpdate s m
  | dir d => rfl
  | ext a => rfl

theorem onlyIndexes_mem2Update (s : State) (m : Mem2) : OnlyIndexes s (mem2Update s m) := by
  cases m with
  | ix m => exact onlyIndexes_idxIUpdate s m
  | ext a => rfl

theorem onlyIndexes_bitUpdate (s : State) (m : BitEa) : OnlyIndexes s (bitUpdate s m) := by
  cases m with
  | ix m => exact onlyIndexes_idxXUpdate s m
  | dir d => rfl
  | ext a => rfl

theorem onlyIndexes_src16Access (s : State) (o : Src16) : OnlyIndexes s (src16Access s o) := by
  rcases o with v | d | a | ((m | _ | _) | _ | _)
  case ix.direct.idx =>
    cases m with
    | auto r post n =>
      cases post
      · exact onlyIndexes_setAreg s _ r
      · rfl
    | off5 r n => rfl
    | acc r o => rfl
  all_goals rfl

theorem onlyIndexes_callUpdate (s : State) (dest : CallDest) : OnlyIndexes s (callUpdate s dest) := by
  cases dest with
  | direct m page => exact onlyIndexes_idxXUpdate s m
  | ext a page => rfl
  | ind16 r n => rfl
  | indD r => rfl

theorem onlyIndexes_moveSource8Update (s : State) (m : MovSrc8) : OnlyIndexes s (moveSource8Update s m) := by
  cases m with
  | ix m => exact onlyIndexes_idxUpdate s m
  | imm v => rfl
  | ext a => rfl

theorem onlyIndexes_moveSource16Update (s : State) (m : MovSrc16) : OnlyIndexes s (moveSource16Update s m) := by
  cases m with
  | ix m => exact onlyIndexes_idxUpdate s m
  | imm v => rfl
  | ext a => rfl

theorem onlyIndexes_moveDestUpdate (s : State) (m : MovDst) : OnlyIndexes s (moveDestUpdate s m) := by
  cases m with
  | ix m => exact onlyIndexes_idxUpdate s m
  | ext a => rfl

/-- What such a state shares with the other. -/
theorem OnlyIndexes.fields {s t : State} (h : OnlyIndexes s t) :
    t.a = s.a ∧ t.b = s.b ∧ t.pc = s.pc ∧ t.ccr = s.ccr ∧ t.mem = s.mem ∧ t.cfg = s.cfg ∧ t.windows = s.windows ∧
    t.ppage = s.ppage ∧ t.dpage = s.dpage ∧ t.epage = s.epage ∧ t.stale = s.stale ∧ t.free = s.free ∧ t.bdm = s.bdm ∧
    t.run = s.run ∧ t.progress = s.progress := by
  rw [OnlyIndexes] at h
  rw [h]
  exact ⟨rfl, rfl, rfl, rfl, rfl, rfl, rfl, rfl, rfl, rfl, rfl, rfl, rfl, rfl, rfl⟩

/-- An addressing mode changes no read. -/
theorem OnlyIndexes.readsSame {s t : State} (h : OnlyIndexes s t) : ReadsSame s t := by
  obtain ⟨-, -, -, -, hm, hc, hw, hp, hd, he, -⟩ := h.fields
  exact readsSame_of hm hc hw hp hd he

/-- Nor where an access goes. -/
theorem OnlyIndexes.locate {s t : State} (h : OnlyIndexes s t) (a : Word) : locate t a = locate s a := by
  obtain ⟨-, -, -, -, -, hc, hw, hp, hd, he, -⟩ := h.fields
  exact locate_congr hc hw hp hd he a

end Sys2Proof.Machine
end

