-- ==== Sys2Proof/Laws/PerInstr.lean ====
section
/-! SUPPORT. Statements for all instructions, one lemma for each constructor. -/

namespace Sys2Proof

/-- An instruction takes one to six bytes (30_encoding.md R101). -/
def Laws.EncodedLength.Statement (i : Instr) : Prop := 1 ≤ (encode i).length ∧ (encode i).length ≤ 6

/-! ## The operand fields -/

theorem length_encIdxX (m : IdxX) : 1 ≤ (encIdxX m).length ∧ (encIdxX m).length ≤ 3 := by cases m <;> simp [encIdxX]

theorem length_encIdxI (m : IdxI) : 1 ≤ (encIdxI m).length ∧ (encIdxI m).length ≤ 3 := by
  cases m with
  | direct m => exact length_encIdxX m
  | ind16 r n => simp [encIdxI]
  | indD r => simp [encIdxI]

theorem length_encSrc8 (op : Byte) (o : Src8) : 1 ≤ (encSrc8 op o).length ∧ (encSrc8 op o).length ≤ 6 := by
  cases o with
  | ix m => have := length_encIdxI m; simp only [encSrc8, List.length_cons]; omega
  | imm v => simp [encSrc8]
  | dir d => simp [encSrc8]
  | ext a => simp [encSrc8]

theorem length_encSrc16 (op : Byte) (o : Src16) : 1 ≤ (encSrc16 op o).length ∧ (encSrc16 op o).length ≤ 6 := by
  cases o with
  | ix m => have := length_encIdxI m; simp only [encSrc16, List.length_cons]; omega
  | imm v => simp [encSrc16]
  | dir d => simp [encSrc16]
  | ext a => simp [encSrc16]

theorem length_encMem3 (d x e : Byte) (o : Mem3) : 1 ≤ (encMem3 d x e o).length ∧ (encMem3 d x e o).length ≤ 6 := by
  cases o with
  | ix m => have := length_encIdxI m; simp only [encMem3, List.length_cons]; omega
  | dir d => simp [encMem3]
  | ext a => simp [encMem3]

theorem length_encMem2 (x e : Byte) (o : Mem2) : 1 ≤ (encMem2 x e o).length ∧ (encMem2 x e o).length ≤ 6 := by
  cases o with
  | ix m => have := length_encIdxI m; simp only [encMem2, List.length_cons]; omega
  | ext a => simp [encMem2]

theorem length_encBitEa (k : Byte) (o : BitEa) : 1 ≤ (encBitEa k o).length ∧ (encBitEa k o).length ≤ 4 := by
  cases o with
  | ix m => have := length_encIdxX m; simp only [encBitEa, List.length_cons]; omega
  | dir d => simp [encBitEa]
  | ext a => simp [encBitEa]

/-- An opcode and a postbyte. -/
theorem length_cons_encIdxX (b : Byte) (m : IdxX) : 1 ≤ (b :: encIdxX m).length ∧ (b :: encIdxX m).length ≤ 6 := by
  have := length_encIdxX m
  simp only [List.length_cons]
  omega

/-- The prebyte, an opcode and a postbyte. -/
theorem length_page2_encIdxI (b : Byte) (m : IdxI) :
    1 ≤ (0x18 :: b :: encIdxI m).length ∧ (0x18 :: b :: encIdxI m).length ≤ 6 := by
  have := length_encIdxI m
  simp only [List.length_cons]
  omega

/-- A bit instruction with its mask and its branch offset. -/
theorem length_encBitEa_append (k : Byte) (o : BitEa) (l : List Byte) (h : l.length ≤ 2) :
    1 ≤ (encBitEa k o ++ l).length ∧ (encBitEa k o ++ l).length ≤ 6 := by
  have := length_encBitEa k o
  rw [List.length_append]
  omega

theorem length_encCall (dest : CallDest) : 1 ≤ (encCall dest).length ∧ (encCall dest).length ≤ 6 := by
  cases dest with
  | direct m page => have := length_encIdxX m; simp only [encCall, List.length_append, List.length_cons, List.length_nil]; omega
  | ext a page => simp [encCall]
  | ind16 r n => simp [encCall, encIdxI]
  | indD r => simp [encCall, encIdxI]

theorem length_encMovb (src : MovSrc8) (dst : MovDst) : 1 ≤ (encMovb src dst).length ∧ (encMovb src dst).length ≤ 6 := by
  cases src <;> cases dst <;> simp [encMovb]

theorem length_encMovw (src : MovSrc16) (dst : MovDst) : 1 ≤ (encMovw src dst).length ∧ (encMovw src dst).length ≤ 6 := by
  cases src <;> cases dst <;> simp [encMovw]

theorem length_encUndef (e : UndefEnc) : 1 ≤ (encUndef e).length ∧ (encUndef e).length ≤ 6 := by
  cases e <;> simp [encUndef]

/-! ## The instructions -/

theorem Laws.EncodedLength.ldaa (o : Src8) : Laws.EncodedLength.Statement (.ldaa o) :=
  length_encSrc8 _ o

theorem Laws.EncodedLength.ldab (o : Src8) : Laws.EncodedLength.Statement (.ldab o) :=
  length_encSrc8 _ o

theorem Laws.EncodedLength.ldd (o : Src16) : Laws.EncodedLength.Statement (.ldd o) :=
  length_encSrc16 _ o

theorem Laws.EncodedLength.lds (o : Src16) : Laws.EncodedLength.Statement (.lds o) :=
  length_encSrc16 _ o

theorem Laws.EncodedLength.ldx (o : Src16) : Laws.EncodedLength.Statement (.ldx o) :=
  length_encSrc16 _ o

theorem Laws.EncodedLength.ldy (o : Src16) : Laws.EncodedLength.Statement (.ldy o) :=
  length_encSrc16 _ o

theorem Laws.EncodedLength.staa (m : Mem3) : Laws.EncodedLength.Statement (.staa m) :=
  length_encMem3 _ _ _ m

theorem Laws.EncodedLength.stab (m : Mem3) : Laws.EncodedLength.Statement (.stab m) :=
  length_encMem3 _ _ _ m

theorem Laws.EncodedLength.std (m : Mem3) : Laws.EncodedLength.Statement (.std m) :=
  length_encMem3 _ _ _ m

theorem Laws.EncodedLength.sts (m : Mem3) : Laws.EncodedLength.Statement (.sts m) :=
  length_encMem3 _ _ _ m

theorem Laws.EncodedLength.stx (m : Mem3) : Laws.EncodedLength.Statement (.stx m) :=
  length_encMem3 _ _ _ m

theorem Laws.EncodedLength.sty (m : Mem3) : Laws.EncodedLength.Statement (.sty m) :=
  length_encMem3 _ _ _ m

theorem Laws.EncodedLength.tab : Laws.EncodedLength.Statement (.tab) :=
  ⟨Nat.le_of_ble_eq_true rfl, Nat.le_of_ble_eq_true rfl⟩

theorem Laws.EncodedLength.tba : Laws.EncodedLength.Statement (.tba) :=
  ⟨Nat.le_of_ble_eq_true rfl, Nat.le_of_ble_eq_true rfl⟩

theorem Laws.EncodedLength.tfr (src : TReg) (dst : TReg) : Laws.EncodedLength.Statement (.tfr src dst) :=
  ⟨Nat.le_of_ble_eq_true rfl, Nat.le_of_ble_eq_true rfl⟩

theorem Laws.EncodedLength.exg (r1 : TReg) (r2 : TReg) : Laws.EncodedLength.Statement (.exg r1 r2) :=
  ⟨Nat.le_of_ble_eq_true rfl, Nat.le_of_ble_eq_true rfl⟩

theorem Laws.EncodedLength.sex (src : Abc) (dst : Dxys) : Laws.EncodedLength.Statement (.sex src dst) :=
  ⟨Nat.le_of_ble_eq_true rfl, Nat.le_of_ble_eq_true rfl⟩

theorem Laws.EncodedLength.tap : Laws.EncodedLength.Statement (.tap) :=
  ⟨Nat.le_of_ble_eq_true rfl, Nat.le_of_ble_eq_true rfl⟩

theorem Laws.EncodedLength.tpa : Laws.EncodedLength.Statement (.tpa) :=
  ⟨Nat.le_of_ble_eq_true rfl, Nat.le_of_ble_eq_true rfl⟩

theorem Laws.EncodedLength.tsx : Laws.EncodedLength.Statement (.tsx) :=
  ⟨Nat.le_of_ble_eq_true rfl, Nat.le_of_ble_eq_true rfl⟩

theorem Laws.EncodedLength.tsy : Laws.EncodedLength.Statement (.tsy) :=
  ⟨Nat.le_of_ble_eq_true rfl, Nat.le_of_ble_eq_true rfl⟩

theorem Laws.EncodedLength.txs : Laws.EncodedLength.Statement (.txs) :=
  ⟨Nat.le_of_ble_eq_true rfl, Nat.le_of_ble_eq_true rfl⟩

theorem Laws.EncodedLength.tys : Laws.EncodedLength.Statement (.tys) :=
  ⟨Nat.le_of_ble_eq_true rfl, Nat.le_of_ble_eq_true rfl⟩

theorem Laws.EncodedLength.xgdx : Laws.EncodedLength.Statement (.xgdx) :=
  ⟨Nat.le_of_ble_eq_true rfl, Nat.le_of_ble_eq_true rfl⟩

theorem Laws.EncodedLength.xgdy : Laws.EncodedLength.Statement (.xgdy) :=
  ⟨Nat.le_of_ble_eq_true rfl, Nat.le_of_ble_eq_true rfl⟩

theorem Laws.EncodedLength.movb (src : MovSrc8) (dst : MovDst) : Laws.EncodedLength.Statement (.movb src dst) :=
  length_encMovb src dst

theorem Laws.EncodedLength.movw (src : MovSrc16) (dst : MovDst) : Laws.EncodedLength.Statement (.movw src dst) :=
  length_encMovw src dst

theorem Laws.EncodedLength.aba : Laws.EncodedLength.Statement (.aba) :=
  ⟨Nat.le_of_ble_eq_true rfl, Nat.le_of_ble_eq_true rfl⟩

theorem Laws.EncodedLength.abx : Laws.EncodedLength.Statement (.abx) :=
  ⟨Nat.le_of_ble_eq_true rfl, Nat.le_of_ble_eq_true rfl⟩

theorem Laws.EncodedLength.aby : Laws.EncodedLength.Statement (.aby) :=
  ⟨Nat.le_of_ble_eq_true rfl, Nat.le_of_ble_eq_true rfl⟩

theorem Laws.EncodedLength.adca (o : Src8) : Laws.EncodedLength.Statement (.adca o) :=
  length_encSrc8 _ o

theorem Laws.EncodedLength.adcb (o : Src8) : Laws.EncodedLength.Statement (.adcb o) :=
  length_encSrc8 _ o

theorem Laws.EncodedLength.adda (o : Src8) : Laws.EncodedLength.Statement (.adda o) :=
  length_encSrc8 _ o

theorem Laws.EncodedLength.addb (o : Src8) : Laws.EncodedLength.Statement (.addb o) :=
  length_encSrc8 _ o

theorem Laws.EncodedLength.addd (o : Src16) : Laws.EncodedLength.Statement (.addd o) :=
  length_encSrc16 _ o

theorem Laws.EncodedLength.sba : Laws.EncodedLength.Statement (.sba) :=
  ⟨Nat.le_of_ble_eq_true rfl, Nat.le_of_ble_eq_true rfl⟩

theorem Laws.EncodedLength.sbca (o : Src8) : Laws.EncodedLength.Statement (.sbca o) :=
  length_encSrc8 _ o

theorem Laws.EncodedLength.sbcb (o : Src8) : Laws.EncodedLength.Statement (.sbcb o) :=
  length_encSrc8 _ o

theorem Laws.EncodedLength.suba (o : Src8) : Laws.EncodedLength.Statement (.suba o) :=
  length_encSrc8 _ o

theorem Laws.EncodedLength.subb (o : Src8) : Laws.EncodedLength.Statement (.subb o) :=
  length_encSrc8 _ o

theorem Laws.EncodedLength.subd (o : Src16) : Laws.EncodedLength.Statement (.subd o) :=
  length_encSrc16 _ o

theorem Laws.EncodedLength.daa : Laws.EncodedLength.Statement (.daa) :=
  ⟨Nat.le_of_ble_eq_true rfl, Nat.le_of_ble_eq_true rfl⟩

theorem Laws.EncodedLength.dec (m : Mem2) : Laws.EncodedLength.Statement (.dec m) :=
  length_encMem2 _ _ m

theorem Laws.EncodedLength.deca : Laws.EncodedLength.Statement (.deca) :=
  ⟨Nat.le_of_ble_eq_true rfl, Nat.le_of_ble_eq_true rfl⟩

theorem Laws.EncodedLength.decb : Laws.EncodedLength.Statement (.decb) :=
  ⟨Nat.le_of_ble_eq_true rfl, Nat.le_of_ble_eq_true rfl⟩

theorem Laws.EncodedLength.des : Laws.EncodedLength.Statement (.des) :=
  ⟨Nat.le_of_ble_eq_true rfl, Nat.le_of_ble_eq_true rfl⟩

theorem Laws.EncodedLength.dex : Laws.EncodedLength.Statement (.dex) :=
  ⟨Nat.le_of_ble_eq_true rfl, Nat.le_of_ble_eq_true rfl⟩

theorem Laws.EncodedLength.dey : Laws.EncodedLength.Statement (.dey) :=
  ⟨Nat.le_of_ble_eq_true rfl, Nat.le_of_ble_eq_true rfl⟩

theorem Laws.EncodedLength.inc (m : Mem2) : Laws.EncodedLength.Statement (.inc m) :=
  length_encMem2 _ _ m

theorem Laws.EncodedLength.inca : Laws.EncodedLength.Statement (.inca) :=
  ⟨Nat.le_of_ble_eq_true rfl, Nat.le_of_ble_eq_true rfl⟩

theorem Laws.EncodedLength.incb : Laws.EncodedLength.Statement (.incb) :=
  ⟨Nat.le_of_ble_eq_true rfl, Nat.le_of_ble_eq_true rfl⟩

theorem Laws.EncodedLength.ins : Laws.EncodedLength.Statement (.ins) :=
  ⟨Nat.le_of_ble_eq_true rfl, Nat.le_of_ble_eq_true rfl⟩

theorem Laws.EncodedLength.inx : Laws.EncodedLength.Statement (.inx) :=
  ⟨Nat.le_of_ble_eq_true rfl, Nat.le_of_ble_eq_true rfl⟩

theorem Laws.EncodedLength.iny : Laws.EncodedLength.Statement (.iny) :=
  ⟨Nat.le_of_ble_eq_true rfl, Nat.le_of_ble_eq_true rfl⟩

theorem Laws.EncodedLength.cba : Laws.EncodedLength.Statement (.cba) :=
  ⟨Nat.le_of_ble_eq_true rfl, Nat.le_of_ble_eq_true rfl⟩

theorem Laws.EncodedLength.cmpa (o : Src8) : Laws.EncodedLength.Statement (.cmpa o) :=
  length_encSrc8 _ o

theorem Laws.EncodedLength.cmpb (o : Src8) : Laws.EncodedLength.Statement (.cmpb o) :=
  length_encSrc8 _ o

theorem Laws.EncodedLength.cpd (o : Src16) : Laws.EncodedLength.Statement (.cpd o) :=
  length_encSrc16 _ o

theorem Laws.EncodedLength.cps (o : Src16) : Laws.EncodedLength.Statement (.cps o) :=
  length_encSrc16 _ o

theorem Laws.EncodedLength.cpx (o : Src16) : Laws.EncodedLength.Statement (.cpx o) :=
  length_encSrc16 _ o

theorem Laws.EncodedLength.cpy (o : Src16) : Laws.EncodedLength.Statement (.cpy o) :=
  length_encSrc16 _ o

theorem Laws.EncodedLength.tst (m : Mem2) : Laws.EncodedLength.Statement (.tst m) :=
  length_encMem2 _ _ m

theorem Laws.EncodedLength.tsta : Laws.EncodedLength.Statement (.tsta) :=
  ⟨Nat.le_of_ble_eq_true rfl, Nat.le_of_ble_eq_true rfl⟩

theorem Laws.EncodedLength.tstb : Laws.EncodedLength.Statement (.tstb) :=
  ⟨Nat.le_of_ble_eq_true rfl, Nat.le_of_ble_eq_true rfl⟩

theorem Laws.EncodedLength.anda (o : Src8) : Laws.EncodedLength.Statement (.anda o) :=
  length_encSrc8 _ o

theorem Laws.EncodedLength.andb (o : Src8) : Laws.EncodedLength.Statement (.andb o) :=
  length_encSrc8 _ o

theorem Laws.EncodedLength.eora (o : Src8) : Laws.EncodedLength.Statement (.eora o) :=
  length_encSrc8 _ o

theorem Laws.EncodedLength.eorb (o : Src8) : Laws.EncodedLength.Statement (.eorb o) :=
  length_encSrc8 _ o

theorem Laws.EncodedLength.oraa (o : Src8) : Laws.EncodedLength.Statement (.oraa o) :=
  length_encSrc8 _ o

theorem Laws.EncodedLength.orab (o : Src8) : Laws.EncodedLength.Statement (.orab o) :=
  length_encSrc8 _ o

theorem Laws.EncodedLength.bita (o : Src8) : Laws.EncodedLength.Statement (.bita o) :=
  length_encSrc8 _ o

theorem Laws.EncodedLength.bitb (o : Src8) : Laws.EncodedLength.Statement (.bitb o) :=
  length_encSrc8 _ o

theorem Laws.EncodedLength.clr (m : Mem2) : Laws.EncodedLength.Statement (.clr m) :=
  length_encMem2 _ _ m

theorem Laws.EncodedLength.clra : Laws.EncodedLength.Statement (.clra) :=
  ⟨Nat.le_of_ble_eq_true rfl, Nat.le_of_ble_eq_true rfl⟩

theorem Laws.EncodedLength.clrb : Laws.EncodedLength.Statement (.clrb) :=
  ⟨Nat.le_of_ble_eq_true rfl, Nat.le_of_ble_eq_true rfl⟩

theorem Laws.EncodedLength.com (m : Mem2) : Laws.EncodedLength.Statement (.com m) :=
  length_encMem2 _ _ m

theorem Laws.EncodedLength.coma : Laws.EncodedLength.Statement (.coma) :=
  ⟨Nat.le_of_ble_eq_true rfl, Nat.le_of_ble_eq_true rfl⟩

theorem Laws.EncodedLength.comb : Laws.EncodedLength.Statement (.comb) :=
  ⟨Nat.le_of_ble_eq_true rfl, Nat.le_of_ble_eq_true rfl⟩

theorem Laws.EncodedLength.neg (m : Mem2) : Laws.EncodedLength.Statement (.neg m) :=
  length_encMem2 _ _ m

theorem Laws.EncodedLength.nega : Laws.EncodedLength.Statement (.nega) :=
  ⟨Nat.le_of_ble_eq_true rfl, Nat.le_of_ble_eq_true rfl⟩

theorem Laws.EncodedLength.negb : Laws.EncodedLength.Statement (.negb) :=
  ⟨Nat.le_of_ble_eq_true rfl, Nat.le_of_ble_eq_true rfl⟩

theorem Laws.EncodedLength.bset (m : BitEa) (mask : Byte) : Laws.EncodedLength.Statement (.bset m mask) :=
  length_encBitEa_append _ m _ (Nat.le_of_ble_eq_true rfl)

theorem Laws.EncodedLength.bclr (m : BitEa) (mask : Byte) : Laws.EncodedLength.Statement (.bclr m mask) :=
  length_encBitEa_append _ m _ (Nat.le_of_ble_eq_true rfl)

theorem Laws.EncodedLength.mul : Laws.EncodedLength.Statement (.mul) :=
  ⟨Nat.le_of_ble_eq_true rfl, Nat.le_of_ble_eq_true rfl⟩

theorem Laws.EncodedLength.emul : Laws.EncodedLength.Statement (.emul) :=
  ⟨Nat.le_of_ble_eq_true rfl, Nat.le_of_ble_eq_true rfl⟩

theorem Laws.EncodedLength.emuls : Laws.EncodedLength.Statement (.emuls) :=
  ⟨Nat.le_of_ble_eq_true rfl, Nat.le_of_ble_eq_true rfl⟩

theorem Laws.EncodedLength.ediv : Laws.EncodedLength.Statement (.ediv) :=
  ⟨Nat.le_of_ble_eq_true rfl, Nat.le_of_ble_eq_true rfl⟩

theorem Laws.EncodedLength.edivs : Laws.EncodedLength.Statement (.edivs) :=
  ⟨Nat.le_of_ble_eq_true rfl, Nat.le_of_ble_eq_true rfl⟩

theorem Laws.EncodedLength.fdiv : Laws.EncodedLength.Statement (.fdiv) :=
  ⟨Nat.le_of_ble_eq_true rfl, Nat.le_of_ble_eq_true rfl⟩

theorem Laws.EncodedLength.idiv : Laws.EncodedLength.Statement (.idiv) :=
  ⟨Nat.le_of_ble_eq_true rfl, Nat.le_of_ble_eq_true rfl⟩

theorem Laws.EncodedLength.idivs : Laws.EncodedLength.Statement (.idivs) :=
  ⟨Nat.le_of_ble_eq_true rfl, Nat.le_of_ble_eq_true rfl⟩

theorem Laws.EncodedLength.asl (m : Mem2) : Laws.EncodedLength.Statement (.asl m) :=
  length_encMem2 _ _ m

theorem Laws.EncodedLength.lsl (m : Mem2) : Laws.EncodedLength.Statement (.lsl m) :=
  length_encMem2 _ _ m

theorem Laws.EncodedLength.asr (m : Mem2) : Laws.EncodedLength.Statement (.asr m) :=
  length_encMem2 _ _ m

theorem Laws.EncodedLength.lsr (m : Mem2) : Laws.EncodedLength.Statement (.lsr m) :=
  length_encMem2 _ _ m

theorem Laws.EncodedLength.rol (m : Mem2) : Laws.EncodedLength.Statement (.rol m) :=
  length_encMem2 _ _ m

theorem Laws.EncodedLength.ror (m : Mem2) : Laws.EncodedLength.Statement (.ror m) :=
  length_encMem2 _ _ m

theorem Laws.EncodedLength.asla : Laws.EncodedLength.Statement (.asla) :=
  ⟨Nat.le_of_ble_eq_true rfl, Nat.le_of_ble_eq_true rfl⟩

theorem Laws.EncodedLength.lsla : Laws.EncodedLength.Statement (.lsla) :=
  ⟨Nat.le_of_ble_eq_true rfl, Nat.le_of_ble_eq_true rfl⟩

theorem Laws.EncodedLength.aslb : Laws.EncodedLength.Statement (.aslb) :=
  ⟨Nat.le_of_ble_eq_true rfl, Nat.le_of_ble_eq_true rfl⟩

theorem Laws.EncodedLength.lslb : Laws.EncodedLength.Statement (.lslb) :=
  ⟨Nat.le_of_ble_eq_true rfl, Nat.le_of_ble_eq_true rfl⟩

theorem Laws.EncodedLength.asld : Laws.EncodedLength.Statement (.asld) :=
  ⟨Nat.le_of_ble_eq_true rfl, Nat.le_of_ble_eq_true rfl⟩

theorem Laws.EncodedLength.lsld : Laws.EncodedLength.Statement (.lsld) :=
  ⟨Nat.le_of_ble_eq_true rfl, Nat.le_of_ble_eq_true rfl⟩

theorem Laws.EncodedLength.asra : Laws.EncodedLength.Statement (.asra) :=
  ⟨Nat.le_of_ble_eq_true rfl, Nat.le_of_ble_eq_true rfl⟩

theorem Laws.EncodedLength.asrb : Laws.EncodedLength.Statement (.asrb) :=
  ⟨Nat.le_of_ble_eq_true rfl, Nat.le_of_ble_eq_true rfl⟩

theorem Laws.EncodedLength.lsra : Laws.EncodedLength.Statement (.lsra) :=
  ⟨Nat.le_of_ble_eq_true rfl, Nat.le_of_ble_eq_true rfl⟩

theorem Laws.EncodedLength.lsrb : Laws.EncodedLength.Statement (.lsrb) :=
  ⟨Nat.le_of_ble_eq_true rfl, Nat.le_of_ble_eq_true rfl⟩

theorem Laws.EncodedLength.lsrd : Laws.EncodedLength.Statement (.lsrd) :=
  ⟨Nat.le_of_ble_eq_true rfl, Nat.le_of_ble_eq_true rfl⟩

theorem Laws.EncodedLength.rola : Laws.EncodedLength.Statement (.rola) :=
  ⟨Nat.le_of_ble_eq_true rfl, Nat.le_of_ble_eq_true rfl⟩

theorem Laws.EncodedLength.rolb : Laws.EncodedLength.Statement (.rolb) :=
  ⟨Nat.le_of_ble_eq_true rfl, Nat.le_of_ble_eq_true rfl⟩

theorem Laws.EncodedLength.rora : Laws.EncodedLength.Statement (.rora) :=
  ⟨Nat.le_of_ble_eq_true rfl, Nat.le_of_ble_eq_true rfl⟩

theorem Laws.EncodedLength.rorb : Laws.EncodedLength.Statement (.rorb) :=
  ⟨Nat.le_of_ble_eq_true rfl, Nat.le_of_ble_eq_true rfl⟩

theorem Laws.EncodedLength.mem : Laws.EncodedLength.Statement (.mem) :=
  ⟨Nat.le_of_ble_eq_true rfl, Nat.le_of_ble_eq_true rfl⟩

theorem Laws.EncodedLength.rev : Laws.EncodedLength.Statement (.rev) :=
  ⟨Nat.le_of_ble_eq_true rfl, Nat.le_of_ble_eq_true rfl⟩

theorem Laws.EncodedLength.revw : Laws.EncodedLength.Statement (.revw) :=
  ⟨Nat.le_of_ble_eq_true rfl, Nat.le_of_ble_eq_true rfl⟩

theorem Laws.EncodedLength.wav : Laws.EncodedLength.Statement (.wav) :=
  ⟨Nat.le_of_ble_eq_true rfl, Nat.le_of_ble_eq_true rfl⟩

theorem Laws.EncodedLength.wavr : Laws.EncodedLength.Statement (.wavr) :=
  ⟨Nat.le_of_ble_eq_true rfl, Nat.le_of_ble_eq_true rfl⟩

theorem Laws.EncodedLength.maxa (m : IdxI) : Laws.EncodedLength.Statement (.maxa m) :=
  length_page2_encIdxI _ m

theorem Laws.EncodedLength.mina (m : IdxI) : Laws.EncodedLength.Statement (.mina m) :=
  length_page2_encIdxI _ m

theorem Laws.EncodedLength.emaxd (m : IdxI) : Laws.EncodedLength.Statement (.emaxd m) :=
  length_page2_encIdxI _ m

theorem Laws.EncodedLength.emind (m : IdxI) : Laws.EncodedLength.Statement (.emind m) :=
  length_page2_encIdxI _ m

theorem Laws.EncodedLength.maxm (m : IdxI) : Laws.EncodedLength.Statement (.maxm m) :=
  length_page2_encIdxI _ m

theorem Laws.EncodedLength.minm (m : IdxI) : Laws.EncodedLength.Statement (.minm m) :=
  length_page2_encIdxI _ m

theorem Laws.EncodedLength.emaxm (m : IdxI) : Laws.EncodedLength.Statement (.emaxm m) :=
  length_page2_encIdxI _ m

theorem Laws.EncodedLength.eminm (m : IdxI) : Laws.EncodedLength.Statement (.eminm m) :=
  length_page2_encIdxI _ m

theorem Laws.EncodedLength.emacs (addr : Word) : Laws.EncodedLength.Statement (.emacs addr) :=
  ⟨Nat.le_of_ble_eq_true rfl, Nat.le_of_ble_eq_true rfl⟩

theorem Laws.EncodedLength.tbl (m : Idx) : Laws.EncodedLength.Statement (.tbl m) :=
  ⟨Nat.le_of_ble_eq_true rfl, Nat.le_of_ble_eq_true rfl⟩

theorem Laws.EncodedLength.etbl (m : Idx) : Laws.EncodedLength.Statement (.etbl m) :=
  ⟨Nat.le_of_ble_eq_true rfl, Nat.le_of_ble_eq_true rfl⟩

theorem Laws.EncodedLength.bra (rel : Byte) : Laws.EncodedLength.Statement (.bra rel) :=
  ⟨Nat.le_of_ble_eq_true rfl, Nat.le_of_ble_eq_true rfl⟩

theorem Laws.EncodedLength.brn (rel : Byte) : Laws.EncodedLength.Statement (.brn rel) :=
  ⟨Nat.le_of_ble_eq_true rfl, Nat.le_of_ble_eq_true rfl⟩

theorem Laws.EncodedLength.bhi (rel : Byte) : Laws.EncodedLength.Statement (.bhi rel) :=
  ⟨Nat.le_of_ble_eq_true rfl, Nat.le_of_ble_eq_true rfl⟩

theorem Laws.EncodedLength.bls (rel : Byte) : Laws.EncodedLength.Statement (.bls rel) :=
  ⟨Nat.le_of_ble_eq_true rfl, Nat.le_of_ble_eq_true rfl⟩

theorem Laws.EncodedLength.bcc (rel : Byte) : Laws.EncodedLength.Statement (.bcc rel) :=
  ⟨Nat.le_of_ble_eq_true rfl, Nat.le_of_ble_eq_true rfl⟩

theorem Laws.EncodedLength.bcs (rel : Byte) : Laws.EncodedLength.Statement (.bcs rel) :=
  ⟨Nat.le_of_ble_eq_true rfl, Nat.le_of_ble_eq_true rfl⟩

theorem Laws.EncodedLength.bne (rel : Byte) : Laws.EncodedLength.Statement (.bne rel) :=
  ⟨Nat.le_of_ble_eq_true rfl, Nat.le_of_ble_eq_true rfl⟩

theorem Laws.EncodedLength.beq (rel : Byte) : Laws.EncodedLength.Statement (.beq rel) :=
  ⟨Nat.le_of_ble_eq_true rfl, Nat.le_of_ble_eq_true rfl⟩

theorem Laws.EncodedLength.bvc (rel : Byte) : Laws.EncodedLength.Statement (.bvc rel) :=
  ⟨Nat.le_of_ble_eq_true rfl, Nat.le_of_ble_eq_true rfl⟩

theorem Laws.EncodedLength.bvs (rel : Byte) : Laws.EncodedLength.Statement (.bvs rel) :=
  ⟨Nat.le_of_ble_eq_true rfl, Nat.le_of_ble_eq_true rfl⟩

theorem Laws.EncodedLength.bpl (rel : Byte) : Laws.EncodedLength.Statement (.bpl rel) :=
  ⟨Nat.le_of_ble_eq_true rfl, Nat.le_of_ble_eq_true rfl⟩

theorem Laws.EncodedLength.bmi (rel : Byte) : Laws.EncodedLength.Statement (.bmi rel) :=
  ⟨Nat.le_of_ble_eq_true rfl, Nat.le_of_ble_eq_true rfl⟩

theorem Laws.EncodedLength.bge (rel : Byte) : Laws.EncodedLength.Statement (.bge rel) :=
  ⟨Nat.le_of_ble_eq_true rfl, Nat.le_of_ble_eq_true rfl⟩

theorem Laws.EncodedLength.blt (rel : Byte) : Laws.EncodedLength.Statement (.blt rel) :=
  ⟨Nat.le_of_ble_eq_true rfl, Nat.le_of_ble_eq_true rfl⟩

theorem Laws.EncodedLength.bgt (rel : Byte) : Laws.EncodedLength.Statement (.bgt rel) :=
  ⟨Nat.le_of_ble_eq_true rfl, Nat.le_of_ble_eq_true rfl⟩

theorem Laws.EncodedLength.ble (rel : Byte) : Laws.EncodedLength.Statement (.ble rel) :=
  ⟨Nat.le_of_ble_eq_true rfl, Nat.le_of_ble_eq_true rfl⟩

theorem Laws.EncodedLength.bhs (rel : Byte) : Laws.EncodedLength.Statement (.bhs rel) :=
  ⟨Nat.le_of_ble_eq_true rfl, Nat.le_of_ble_eq_true rfl⟩

theorem Laws.EncodedLength.blo (rel : Byte) : Laws.EncodedLength.Statement (.blo rel) :=
  ⟨Nat.le_of_ble_eq_true rfl, Nat.le_of_ble_eq_true rfl⟩

theorem Laws.EncodedLength.lbra (rel : Word) : Laws.EncodedLength.Statement (.lbra rel) :=
  ⟨Nat.le_of_ble_eq_true rfl, Nat.le_of_ble_eq_true rfl⟩

theorem Laws.EncodedLength.lbrn (rel : Word) : Laws.EncodedLength.Statement (.lbrn rel) :=
  ⟨Nat.le_of_ble_eq_true rfl, Nat.le_of_ble_eq_true rfl⟩

theorem Laws.EncodedLength.lbhi (rel : Word) : Laws.EncodedLength.Statement (.lbhi rel) :=
  ⟨Nat.le_of_ble_eq_true rfl, Nat.le_of_ble_eq_true rfl⟩

theorem Laws.EncodedLength.lbls (rel : Word) : Laws.EncodedLength.Statement (.lbls rel) :=
  ⟨Nat.le_of_ble_eq_true rfl, Nat.le_of_ble_eq_true rfl⟩

theorem Laws.EncodedLength.lbcc (rel : Word) : Laws.EncodedLength.Statement (.lbcc rel) :=
  ⟨Nat.le_of_ble_eq_true rfl, Nat.le_of_ble_eq_true rfl⟩

theorem Laws.EncodedLength.lbcs (rel : Word) : Laws.EncodedLength.Statement (.lbcs rel) :=
  ⟨Nat.le_of_ble_eq_true rfl, Nat.le_of_ble_eq_true rfl⟩

theorem Laws.EncodedLength.lbne (rel : Word) : Laws.EncodedLength.Statement (.lbne rel) :=
  ⟨Nat.le_of_ble_eq_true rfl, Nat.le_of_ble_eq_true rfl⟩

theorem Laws.EncodedLength.lbeq (rel : Word) : Laws.EncodedLength.Statement (.lbeq rel) :=
  ⟨Nat.le_of_ble_eq_true rfl, Nat.le_of_ble_eq_true rfl⟩

theorem Laws.EncodedLength.lbvc (rel : Word) : Laws.EncodedLength.Statement (.lbvc rel) :=
  ⟨Nat.le_of_ble_eq_true rfl, Nat.le_of_ble_eq_true rfl⟩

theorem Laws.EncodedLength.lbvs (rel : Word) : Laws.EncodedLength.Statement (.lbvs rel) :=
  ⟨Nat.le_of_ble_eq_true rfl, Nat.le_of_ble_eq_true rfl⟩

theorem Laws.EncodedLength.lbpl (rel : Word) : Laws.EncodedLength.Statement (.lbpl rel) :=
  ⟨Nat.le_of_ble_eq_true rfl, Nat.le_of_ble_eq_true rfl⟩

theorem Laws.EncodedLength.lbmi (rel : Word) : Laws.EncodedLength.Statement (.lbmi rel) :=
  ⟨Nat.le_of_ble_eq_true rfl, Nat.le_of_ble_eq_true rfl⟩

theorem Laws.EncodedLength.lbge (rel : Word) : Laws.EncodedLength.Statement (.lbge rel) :=
  ⟨Nat.le_of_ble_eq_true rfl, Nat.le_of_ble_eq_true rfl⟩

theorem Laws.EncodedLength.lblt (rel : Word) : Laws.EncodedLength.Statement (.lblt rel) :=
  ⟨Nat.le_of_ble_eq_true rfl, Nat.le_of_ble_eq_true rfl⟩

theorem Laws.EncodedLength.lbgt (rel : Word) : Laws.EncodedLength.Statement (.lbgt rel) :=
  ⟨Nat.le_of_ble_eq_true rfl, Nat.le_of_ble_eq_true rfl⟩

theorem Laws.EncodedLength.lble (rel : Word) : Laws.EncodedLength.Statement (.lble rel) :=
  ⟨Nat.le_of_ble_eq_true rfl, Nat.le_of_ble_eq_true rfl⟩

theorem Laws.EncodedLength.lbhs (rel : Word) : Laws.EncodedLength.Statement (.lbhs rel) :=
  ⟨Nat.le_of_ble_eq_true rfl, Nat.le_of_ble_eq_true rfl⟩

theorem Laws.EncodedLength.lblo (rel : Word) : Laws.EncodedLength.Statement (.lblo rel) :=
  ⟨Nat.le_of_ble_eq_true rfl, Nat.le_of_ble_eq_true rfl⟩

theorem Laws.EncodedLength.brset (m : BitEa) (mask : Byte) (rel : Byte) :
    Laws.EncodedLength.Statement (.brset m mask rel) :=
  length_encBitEa_append _ m _ (Nat.le_of_ble_eq_true rfl)

theorem Laws.EncodedLength.brclr (m : BitEa) (mask : Byte) (rel : Byte) :
    Laws.EncodedLength.Statement (.brclr m mask rel) :=
  length_encBitEa_append _ m _ (Nat.le_of_ble_eq_true rfl)

theorem Laws.EncodedLength.dbeq (cntr : LoopReg) (rel : BitVec 9) : Laws.EncodedLength.Statement (.dbeq cntr rel) :=
  ⟨Nat.le_of_ble_eq_true rfl, Nat.le_of_ble_eq_true rfl⟩

theorem Laws.EncodedLength.dbne (cntr : LoopReg) (rel : BitVec 9) : Laws.EncodedLength.Statement (.dbne cntr rel) :=
  ⟨Nat.le_of_ble_eq_true rfl, Nat.le_of_ble_eq_true rfl⟩

theorem Laws.EncodedLength.tbeq (cntr : LoopReg) (rel : BitVec 9) : Laws.EncodedLength.Statement (.tbeq cntr rel) :=
  ⟨Nat.le_of_ble_eq_true rfl, Nat.le_of_ble_eq_true rfl⟩

theorem Laws.EncodedLength.tbne (cntr : LoopReg) (rel : BitVec 9) : Laws.EncodedLength.Statement (.tbne cntr rel) :=
  ⟨Nat.le_of_ble_eq_true rfl, Nat.le_of_ble_eq_true rfl⟩

theorem Laws.EncodedLength.ibeq (cntr : LoopReg) (rel : BitVec 9) : Laws.EncodedLength.Statement (.ibeq cntr rel) :=
  ⟨Nat.le_of_ble_eq_true rfl, Nat.le_of_ble_eq_true rfl⟩

theorem Laws.EncodedLength.ibne (cntr : LoopReg) (rel : BitVec 9) : Laws.EncodedLength.Statement (.ibne cntr rel) :=
  ⟨Nat.le_of_ble_eq_true rfl, Nat.le_of_ble_eq_true rfl⟩

theorem Laws.EncodedLength.jmp (m : Mem2) : Laws.EncodedLength.Statement (.jmp m) :=
  length_encMem2 _ _ m

theorem Laws.EncodedLength.bsr (rel : Byte) : Laws.EncodedLength.Statement (.bsr rel) :=
  ⟨Nat.le_of_ble_eq_true rfl, Nat.le_of_ble_eq_true rfl⟩

theorem Laws.EncodedLength.jsr (m : Mem3) : Laws.EncodedLength.Statement (.jsr m) :=
  length_encMem3 _ _ _ m

theorem Laws.EncodedLength.call (dest : CallDest) : Laws.EncodedLength.Statement (.call dest) :=
  length_encCall dest

theorem Laws.EncodedLength.rts : Laws.EncodedLength.Statement (.rts) :=
  ⟨Nat.le_of_ble_eq_true rfl, Nat.le_of_ble_eq_true rfl⟩

theorem Laws.EncodedLength.rtc : Laws.EncodedLength.Statement (.rtc) :=
  ⟨Nat.le_of_ble_eq_true rfl, Nat.le_of_ble_eq_true rfl⟩

theorem Laws.EncodedLength.rti : Laws.EncodedLength.Statement (.rti) :=
  ⟨Nat.le_of_ble_eq_true rfl, Nat.le_of_ble_eq_true rfl⟩

theorem Laws.EncodedLength.swi : Laws.EncodedLength.Statement (.swi) :=
  ⟨Nat.le_of_ble_eq_true rfl, Nat.le_of_ble_eq_true rfl⟩

theorem Laws.EncodedLength.trap (tn : Byte) : Laws.EncodedLength.Statement (.trap tn) :=
  ⟨Nat.le_of_ble_eq_true rfl, Nat.le_of_ble_eq_true rfl⟩

theorem Laws.EncodedLength.leas (m : IdxX) : Laws.EncodedLength.Statement (.leas m) :=
  length_cons_encIdxX _ m

theorem Laws.EncodedLength.leax (m : IdxX) : Laws.EncodedLength.Statement (.leax m) :=
  length_cons_encIdxX _ m

theorem Laws.EncodedLength.leay (m : IdxX) : Laws.EncodedLength.Statement (.leay m) :=
  length_cons_encIdxX _ m

theorem Laws.EncodedLength.psha : Laws.EncodedLength.Statement (.psha) :=
  ⟨Nat.le_of_ble_eq_true rfl, Nat.le_of_ble_eq_true rfl⟩

theorem Laws.EncodedLength.pshb : Laws.EncodedLength.Statement (.pshb) :=
  ⟨Nat.le_of_ble_eq_true rfl, Nat.le_of_ble_eq_true rfl⟩

theorem Laws.EncodedLength.pshc : Laws.EncodedLength.Statement (.pshc) :=
  ⟨Nat.le_of_ble_eq_true rfl, Nat.le_of_ble_eq_true rfl⟩

theorem Laws.EncodedLength.pshd : Laws.EncodedLength.Statement (.pshd) :=
  ⟨Nat.le_of_ble_eq_true rfl, Nat.le_of_ble_eq_true rfl⟩

theorem Laws.EncodedLength.pshx : Laws.EncodedLength.Statement (.pshx) :=
  ⟨Nat.le_of_ble_eq_true rfl, Nat.le_of_ble_eq_true rfl⟩

theorem Laws.EncodedLength.pshy : Laws.EncodedLength.Statement (.pshy) :=
  ⟨Nat.le_of_ble_eq_true rfl, Nat.le_of_ble_eq_true rfl⟩

theorem Laws.EncodedLength.pula : Laws.EncodedLength.Statement (.pula) :=
  ⟨Nat.le_of_ble_eq_true rfl, Nat.le_of_ble_eq_true rfl⟩

theorem Laws.EncodedLength.pulb : Laws.EncodedLength.Statement (.pulb) :=
  ⟨Nat.le_of_ble_eq_true rfl, Nat.le_of_ble_eq_true rfl⟩

theorem Laws.EncodedLength.pulc : Laws.EncodedLength.Statement (.pulc) :=
  ⟨Nat.le_of_ble_eq_true rfl, Nat.le_of_ble_eq_true rfl⟩

theorem Laws.EncodedLength.puld : Laws.EncodedLength.Statement (.puld) :=
  ⟨Nat.le_of_ble_eq_true rfl, Nat.le_of_ble_eq_true rfl⟩

theorem Laws.EncodedLength.pulx : Laws.EncodedLength.Statement (.pulx) :=
  ⟨Nat.le_of_ble_eq_true rfl, Nat.le_of_ble_eq_true rfl⟩

theorem Laws.EncodedLength.puly : Laws.EncodedLength.Statement (.puly) :=
  ⟨Nat.le_of_ble_eq_true rfl, Nat.le_of_ble_eq_true rfl⟩

theorem Laws.EncodedLength.andcc (mask : Byte) : Laws.EncodedLength.Statement (.andcc mask) :=
  ⟨Nat.le_of_ble_eq_true rfl, Nat.le_of_ble_eq_true rfl⟩

theorem Laws.EncodedLength.orcc (mask : Byte) : Laws.EncodedLength.Statement (.orcc mask) :=
  ⟨Nat.le_of_ble_eq_true rfl, Nat.le_of_ble_eq_true rfl⟩

theorem Laws.EncodedLength.clc : Laws.EncodedLength.Statement (.clc) :=
  ⟨Nat.le_of_ble_eq_true rfl, Nat.le_of_ble_eq_true rfl⟩

theorem Laws.EncodedLength.cli : Laws.EncodedLength.Statement (.cli) :=
  ⟨Nat.le_of_ble_eq_true rfl, Nat.le_of_ble_eq_true rfl⟩

theorem Laws.EncodedLength.clv : Laws.EncodedLength.Statement (.clv) :=
  ⟨Nat.le_of_ble_eq_true rfl, Nat.le_of_ble_eq_true rfl⟩

theorem Laws.EncodedLength.sec : Laws.EncodedLength.Statement (.sec) :=
  ⟨Nat.le_of_ble_eq_true rfl, Nat.le_of_ble_eq_true rfl⟩

theorem Laws.EncodedLength.sei : Laws.EncodedLength.Statement (.sei) :=
  ⟨Nat.le_of_ble_eq_true rfl, Nat.le_of_ble_eq_true rfl⟩

theorem Laws.EncodedLength.sev : Laws.EncodedLength.Statement (.sev) :=
  ⟨Nat.le_of_ble_eq_true rfl, Nat.le_of_ble_eq_true rfl⟩

theorem Laws.EncodedLength.nop : Laws.EncodedLength.Statement (.nop) :=
  ⟨Nat.le_of_ble_eq_true rfl, Nat.le_of_ble_eq_true rfl⟩

theorem Laws.EncodedLength.stop : Laws.EncodedLength.Statement (.stop) :=
  ⟨Nat.le_of_ble_eq_true rfl, Nat.le_of_ble_eq_true rfl⟩

theorem Laws.EncodedLength.wai : Laws.EncodedLength.Statement (.wai) :=
  ⟨Nat.le_of_ble_eq_true rfl, Nat.le_of_ble_eq_true rfl⟩

theorem Laws.EncodedLength.bgnd : Laws.EncodedLength.Statement (.bgnd) :=
  ⟨Nat.le_of_ble_eq_true rfl, Nat.le_of_ble_eq_true rfl⟩

theorem Laws.EncodedLength.undefined (e : UndefEnc) : Laws.EncodedLength.Statement (.undefined e) :=
  length_encUndef e

end Sys2Proof
end

