-- ==== Sys2Proof/Laws/Step.lean ====
section
/-! SUPPORT. What the step's own operations can do: a change of the next state, the end of a step, stores made again,
and a BDM command inside an action. -/

namespace Sys2Proof.Machine

/-- A change of the next state answers a next state only from one. -/
theorem mapNext_next {f : State → State} {r : Res} {t : State} : mapNext f r = .next t ↔ ∃ u, r = .next u ∧ f u = t := by
  cases r <;> simp [mapNext]

/-- The boundary: an action that is chosen, prepared, done and finished. -/
theorem boundary_next {s t : State} {tags : List TagKind} : boundary s tags = .next t ↔
    ∃ a u, boundaryAction s tags = .ok a ∧ act (prepare s a) a = .next u ∧ finish s a u = t := by
  unfold boundary
  split <;> simp_all [mapNext_next]

/-- The same with a BDM command inside the action. -/
theorem boundaryWithCommand_next {s t : State} {tags : List TagKind} {cut : Cut} {c : Command} :
    boundaryWithCommand s tags cut c = .next t ↔
    ∃ a u, boundaryAction s tags = .ok a ∧ actWithCommand s a cut c = .next u ∧ finish s a u = t := by
  unfold boundaryWithCommand
  split <;> simp_all [mapNext_next]

/-- A step without an event, and with nothing to come inside it, is its boundary. -/
theorem oneStep_of_no_event {s : State} (h : s.schedule.headD [] = []) :
    oneStep s = mapNext closeStep (boundary { s with schedule := s.schedule.tail } []) := by
  simp only [oneStep, arrivals, h, arriveEvents, stepAt]

/-- A store made again changes memory, the page registers and the queue's note. -/
theorem onlyStores_applyStore (s : State) (e : Store) : OnlyStores s (applyStore s e) := by
  cases e with
  | byte a v => exact onlyStores_write8 s a v
  | word a v => exact onlyStores_write16 s a v
  | page v => rfl

/-- So do several. -/
theorem onlyStores_applyStores (s : State) (es : List Store) : OnlyStores s (applyStores s es) := by
  induction es generalizing s with
  | nil => rfl
  | cons e es ih => exact (onlyStores_applyStore s e).trans (ih _)

/-- What a command among the stores of an action can change. -/
theorem commandAmong_eq {s t u : State} {b : Bool} {c : Command} {n : Nat} (h : commandAmong s t b c n = .ok u) :
    OnlyStores { t with bdm := u.bdm } u ∧ ∃ p v, OnlyStores s p ∧
      bdmCommand { p with pc := t.pc, stale := [] } c.op c.addr c.data = .ok v ∧ (u.bdm = t.bdm ∨ u.bdm = v.bdm) := by
  unfold commandAmong at h
  dsimp only at h
  cases e : bdmCommand { applyStores s (t.stores.reverse.take n) with pc := t.pc, stale := [] } c.op c.addr c.data with
  | error r => rw [e] at h; simp [Except.map] at h
  | ok v =>
    rw [e] at h
    simp only [Except.map, Except.ok.injEq] at h
    subst h
    refine ⟨rfl, _, v, onlyStores_applyStores s _, e, ?_⟩
    dsimp only
    split
    · exact .inl rfl
    · exact .inr rfl

/-- After a change of flow only the command's own stores are noted against the queue (20_memory.md R84). -/
theorem commandAmong_stale {s t u : State} {c : Command} {n : Nat} (h : commandAmong s t true c n = .ok u) :
    ∃ v, bdmCommand { applyStores s (t.stores.reverse.take n) with pc := t.pc, stale := [] } c.op c.addr c.data = .ok v ∧
      u.stale = v.stale := by
  unfold commandAmong at h
  dsimp only at h
  cases e : bdmCommand { applyStores s (t.stores.reverse.take n) with pc := t.pc, stale := [] } c.op c.addr c.data with
  | error r => rw [e] at h; simp [Except.map] at h
  | ok v =>
    rw [e] at h
    simp only [Except.map, Except.ok.injEq] at h
    exact ⟨v, rfl, by rw [← h]; rfl⟩

/-- A command inside an action: the action is done on the state that the command leaves, with its early reads, and the
result differs from the action's in what a store, or the command, can change. -/
theorem commandWithin_next {f : State → Res} {s u : State} {c : Command} {reads n : Nat}
    (h : commandWithin f s c reads n = .next u) : ∃ q t, bdmCommand s c.op c.addr c.data = .ok q ∧
      let early := some ⟨reads, s.mem, s.ppage, s.dpage, s.epage⟩
      (f { q with earlier := early } = .next t ∧ u = endEarly t ∨
        f { q with earlier := early, stale := flowMark } = .next t ∧
          commandAmong s (endEarly t) t.stale.isEmpty c n = .ok u) := by
  unfold commandWithin at h
  split at h
  · cases h
  · rename_i q e
    dsimp only at h
    split at h
    · obtain ⟨t, et, rfl⟩ := mapNext_next.1 h
      exact ⟨q, t, e, .inl ⟨et, rfl⟩⟩
    · split at h
      · cases h
      · cases h
      · rename_i t et
        split at h
        · rename_i w ew
          cases h
          exact ⟨q, t, e, .inr ⟨et, ew⟩⟩
        · cases h

/-! ## The end of a step -/

@[simp] theorem closeStep_a (s : State) : (closeStep s).a = s.a := rfl
@[simp] theorem closeStep_b (s : State) : (closeStep s).b = s.b := rfl
@[simp] theorem closeStep_x (s : State) : (closeStep s).x = s.x := rfl
@[simp] theorem closeStep_y (s : State) : (closeStep s).y = s.y := rfl
@[simp] theorem closeStep_sp (s : State) : (closeStep s).sp = s.sp := rfl
@[simp] theorem closeStep_pc (s : State) : (closeStep s).pc = s.pc := rfl
@[simp] theorem closeStep_ccr (s : State) : (closeStep s).ccr = s.ccr := rfl
@[simp] theorem closeStep_tmp1 (s : State) : (closeStep s).tmp1 = s.tmp1 := rfl
@[simp] theorem closeStep_tmp2 (s : State) : (closeStep s).tmp2 = s.tmp2 := rfl
@[simp] theorem closeStep_tmp3 (s : State) : (closeStep s).tmp3 = s.tmp3 := rfl
@[simp] theorem closeStep_ppage (s : State) : (closeStep s).ppage = s.ppage := rfl
@[simp] theorem closeStep_dpage (s : State) : (closeStep s).dpage = s.dpage := rfl
@[simp] theorem closeStep_epage (s : State) : (closeStep s).epage = s.epage := rfl
@[simp] theorem closeStep_windows (s : State) : (closeStep s).windows = s.windows := rfl
@[simp] theorem closeStep_iDelay (s : State) : (closeStep s).iDelay = s.iDelay := rfl
@[simp] theorem closeStep_run (s : State) : (closeStep s).run = s.run := rfl
@[simp] theorem closeStep_progress (s : State) : (closeStep s).progress = s.progress := rfl
@[simp] theorem closeStep_outputs (s : State) : (closeStep s).outputs = s.outputs := rfl
@[simp] theorem closeStep_consumed (s : State) : (closeStep s).consumed = s.consumed := rfl
@[simp] theorem closeStep_suspended (s : State) : (closeStep s).suspended = s.suspended := rfl
@[simp] theorem closeStep_stale (s : State) : (closeStep s).stale = s.stale := rfl
@[simp] theorem closeStep_pins (s : State) : (closeStep s).pins = s.pins := rfl
@[simp] theorem closeStep_bdm (s : State) : (closeStep s).bdm = s.bdm := rfl
@[simp] theorem closeStep_schedule (s : State) : (closeStep s).schedule = s.schedule := rfl
@[simp] theorem closeStep_budget (s : State) : (closeStep s).budget = none := rfl
@[simp] theorem closeStep_stores (s : State) : (closeStep s).stores = [] := rfl
@[simp] theorem closeStep_earlier (s : State) : (closeStep s).earlier = none := rfl
@[simp] theorem closeStep_free (s : State) : (closeStep s).free = s.free + 1 := rfl
@[simp] theorem closeStep_mem (s : State) : (closeStep s).mem = s.mem := rfl
@[simp] theorem closeStep_cfg (s : State) : (closeStep s).cfg = s.cfg := rfl

end Sys2Proof.Machine
end

