-- ==== Sys2Proof/Machine/Run.lean ====
section
/-! DEFINITION. Runs: `end_condition`, the parameter that ends one (00_scope.md R5, 70_reset_and_hazards.md R733, D22),
and the instances that the spec suggests for it. -/

namespace Sys2Proof.Machine

/-- At most `n` steps from `s`, ending in the first state that `ended` accepts, `end_condition` (R733); a refusal ends
the run too. -/
def run (ended : State → Bool) : Nat → State → Res
  | 0, s => .next s
  | n + 1, s =>
      if ended s then .next s
      else
        match step s with
        | .next t => run ended n t
        | .fault r => .fault r
        | .refused r => .refused r

/-- Stopped or waiting with no event to come and none that ends it now (D22, first instance). -/
def suspendedForGood (s : State) : Bool :=
  s.schedule.all List.isEmpty && match s.run with
    | .stopped => (wakeStopped s).run == .stopped
    | .waiting => (wakeWaiting s).run == .waiting
    | .running | .bdmActive => false

/-- Active BDM (D22, second instance). -/
def inActiveBdm (s : State) : Bool := s.run == .bdmActive

/-- The PC is a named address, the machine running (D22, third instance). -/
def reached (a : Word) (s : State) : Bool := s.run == .running && s.pc == a

end Sys2Proof.Machine
end

