-- ==== Sys2Proof/Tests/Slice0.lean ====
section
/-! SUPPORT. Tests. Expected values come from the spec: the encodings from the opcode maps and postbyte tables of
30_encoding.md, the results of one step from the tables of 95_test_vectors.md. After them, a state that meets the
hypotheses of each statement that has any. -/

namespace Sys2Proof.Machine

/-! ## WellFormed: each check refuses an ill-formed term -/

/-- $3A is REV and $2F is LBLE, no trap numbers (R105). -/
theorem test_trap_number_is_checked :
    (Instr.trap 0x3A).wf = false ∧ (Instr.trap 0x2F).wf = false ∧ (Instr.trap 0x3F).wf = false := by decide

/-- $86 has no indexed form; $27 is no indirect postbyte. -/
theorem test_undefined_page1_is_checked :
    (Instr.undefined (.page1 0x86 0xE3)).wf = false ∧ (Instr.undefined (.page1 0x1A 0x27)).wf = false := by decide

/-- $06 is ABA; $E4 is an accumulator offset. -/
theorem test_undefined_page2_is_checked :
    (Instr.undefined (.page2 0x06 0xE0)).wf = false ∧ (Instr.undefined (.page2 0x3D 0xE4)).wf = false := by decide

/-- The first postbyte must be legal, the second must not; $05 has one postbyte. -/
theorem test_undefined_second_is_checked :
    (Instr.undefined (.second 0x02 0xE0 0xE0)).wf = false ∧ (Instr.undefined (.second 0x02 0x00 0x00)).wf = false ∧
    (Instr.undefined (.second 0x05 0x00 0xE0)).wf = false := by decide

/-- $05 is DBEQ X. -/
theorem test_undefined_loop_is_checked : (Instr.undefined (.loop 0x05)).wf = false := by decide

/-! ## Encodings: each word decodes to its instruction (a translated mnemonic's to its core), and is what is encoded -/

/-- Every word decodes to the core instruction of its term, and encoding the term gives the word. -/
def encodes (l : List (List Byte × Instr)) : Bool :=
  l.all fun p => decide (decode p.1 = .ok (p.2.canon, [])) && decide (encode p.2 = p.1)

/-- Loads and stores (40_load_store_move.md) -/
theorem test_encodings_of_loads_and_stores :
    encodes [([0x86, 0x5A], .ldaa (.imm 0x5A)), ([0xD6, 0x34], .ldab (.dir 0x34)),
      ([0xCC, 0x56, 0x78], .ldd (.imm 0x5678)), ([0xDF, 0x34], .lds (.dir 0x34)),
      ([0xFE, 0x12, 0x34], .ldx (.ext 0x1234)), ([0xED, 0x0C], .ldy (.ix (.direct (.idx (.off5 .x 12))))),
      ([0x5A, 0x34], .staa (.dir 0x34)), ([0x7B, 0x12, 0x34], .stab (.ext 0x1234)),
      ([0x6C, 0xA1], .std (.ix (.direct (.idx (.auto .sp false 1))))), ([0x5F, 0x34], .sts (.dir 0x34)),
      ([0x7E, 0x12, 0x34], .stx (.ext 0x1234)), ([0x6D, 0x77], .sty (.ix (.direct (.idx (.auto .y true 7)))))] = true := by decide

/-- Transfers, exchanges and moves (40_load_store_move.md) -/
theorem test_encodings_of_transfers_and_moves :
    encodes [([0x18, 0x0E], .tab), ([0x18, 0x0F], .tba), ([0xB7, 0x05], .tfr .a .x), ([0xB7, 0x31], .tfr .tmp .b),
      ([0xB7, 0xE4], .exg .y .d), ([0xB7, 0x93], .exg .b .tmp), ([0xB7, 0x26], .sex .ccr .y), ([0xB7, 0x02], .tap),
      ([0xB7, 0x20], .tpa), ([0xB7, 0x75], .tsx), ([0xB7, 0x76], .tsy), ([0xB7, 0x57], .txs), ([0xB7, 0x67], .tys),
      ([0xB7, 0xC5], .xgdx), ([0xB7, 0xC6], .xgdy), ([0x18, 0x08, 0x0C, 0x5A], .movb (.imm 0x5A) (.ix (.off5 .x 12))),
      ([0x18, 0x0D, 0xF5, 0x12, 0x34], .movb (.ix (.acc .sp .b)) (.ext 0x1234)),
      ([0x18, 0x09, 0xA1, 0x12, 0x34], .movb (.ext 0x1234) (.ix (.auto .sp false 1))),
      ([0x18, 0x03, 0x56, 0x78, 0x12, 0x34], .movw (.imm 0x5678) (.ext 0x1234)),
      ([0x18, 0x02, 0x77, 0xF5], .movw (.ix (.auto .y true 7)) (.ix (.acc .sp .b))),
      ([0x18, 0x01, 0x0C, 0x12, 0x34], .movw (.ext 0x1234) (.ix (.off5 .x 12)))] = true := by decide

/-- Addition, subtraction, BCD, increment, decrement, compare, test (41_arith.md) -/
theorem test_encodings_of_arithmetic :
    encodes [([0x18, 0x06], .aba), ([0x1A, 0xE5], .abx), ([0x19, 0xED], .aby),
      ([0xB9, 0x12, 0x34], .adca (.ext 0x1234)), ([0xE9, 0xF5], .adcb (.ix (.direct (.idx (.acc .sp .b))))),
      ([0x8B, 0x5A], .adda (.imm 0x5A)), ([0xDB, 0x34], .addb (.dir 0x34)), ([0xC3, 0x56, 0x78], .addd (.imm 0x5678)),
      ([0x18, 0x16], .sba), ([0xB2, 0x12, 0x34], .sbca (.ext 0x1234)),
      ([0xE2, 0xE1, 0xEC], .sbcb (.ix (.direct (.off9 .x 0x1EC)))), ([0x80, 0x5A], .suba (.imm 0x5A)),
      ([0xD0, 0x34], .subb (.dir 0x34)), ([0x93, 0x34], .subd (.dir 0x34)), ([0x18, 0x07], .daa),
      ([0x73, 0x12, 0x34], .dec (.ext 0x1234)), ([0x43], .deca), ([0x53], .decb), ([0x1B, 0x9F], .des), ([0x09], .dex),
      ([0x03], .dey), ([0x62, 0xFA, 0x12, 0x34], .inc (.ix (.direct (.off16 .pc 0x1234)))), ([0x42], .inca),
      ([0x52], .incb), ([0x1B, 0x81], .ins), ([0x08], .inx), ([0x02], .iny), ([0x18, 0x17], .cba),
      ([0xB1, 0x12, 0x34], .cmpa (.ext 0x1234)), ([0xE1, 0xEF], .cmpb (.ix (.indD .y))),
      ([0xBC, 0x12, 0x34], .cpd (.ext 0x1234)), ([0xAF, 0xF3, 0x43, 0x21], .cps (.ix (.ind16 .sp 0x4321))),
      ([0x8E, 0x56, 0x78], .cpx (.imm 0x5678)), ([0x9D, 0x34], .cpy (.dir 0x34)),
      ([0xF7, 0x12, 0x34], .tst (.ext 0x1234)), ([0x97], .tsta), ([0xD7], .tstb)] = true := by decide

/-- Logic, clear, complement, negate, bit manipulation (42_logic_bit.md) -/
theorem test_encodings_of_logic_and_bits :
    encodes [([0x84, 0x5A], .anda (.imm 0x5A)), ([0xD4, 0x34], .andb (.dir 0x34)),
      ([0xB8, 0x12, 0x34], .eora (.ext 0x1234)), ([0xE8, 0x0C], .eorb (.ix (.direct (.idx (.off5 .x 12))))),
      ([0x8A, 0x5A], .oraa (.imm 0x5A)), ([0xDA, 0x34], .orab (.dir 0x34)), ([0xB5, 0x12, 0x34], .bita (.ext 0x1234)),
      ([0xE5, 0xA1], .bitb (.ix (.direct (.idx (.auto .sp false 1))))),
      ([0x69, 0x77], .clr (.ix (.direct (.idx (.auto .y true 7))))), ([0x87], .clra), ([0xC7], .clrb),
      ([0x71, 0x12, 0x34], .com (.ext 0x1234)), ([0x41], .coma), ([0x51], .comb),
      ([0x60, 0xF5], .neg (.ix (.direct (.idx (.acc .sp .b))))), ([0x40], .nega), ([0x50], .negb),
      ([0x4C, 0x34, 0x81], .bset (.dir 0x34) 0x81), ([0x1D, 0x12, 0x34, 0x81], .bclr (.ext 0x1234) 0x81)] = true := by decide

/-- Multiplication and division (43_muldiv.md) -/
theorem test_encodings_of_multiplication_and_division :
    encodes [([0x12], .mul), ([0x13], .emul), ([0x18, 0x13], .emuls), ([0x11], .ediv), ([0x18, 0x14], .edivs),
      ([0x18, 0x11], .fdiv), ([0x18, 0x10], .idiv), ([0x18, 0x15], .idivs)] = true := by decide

/-- Shifts and rotates (44_shift_rotate.md) -/
theorem test_encodings_of_shifts :
    encodes [([0x78, 0x12, 0x34], .asl (.ext 0x1234)), ([0x68, 0xE1, 0xEC], .lsl (.ix (.direct (.off9 .x 0x1EC)))),
      ([0x77, 0x12, 0x34], .asr (.ext 0x1234)), ([0x64, 0xFA, 0x12, 0x34], .lsr (.ix (.direct (.off16 .pc 0x1234)))),
      ([0x75, 0x12, 0x34], .rol (.ext 0x1234)), ([0x66, 0xEF], .ror (.ix (.indD .y))), ([0x48], .asla), ([0x48], .lsla),
      ([0x58], .aslb), ([0x58], .lslb), ([0x59], .asld), ([0x59], .lsld), ([0x47], .asra), ([0x57], .asrb),
      ([0x44], .lsra), ([0x54], .lsrb), ([0x49], .lsrd), ([0x45], .rola), ([0x55], .rolb), ([0x46], .rora),
      ([0x56], .rorb)] = true := by decide

/-- Fuzzy logic, minimum and maximum, multiply-accumulate, table lookup (45_fuzzy_minmax_mac_tbl.md) -/
theorem test_encodings_of_fuzzy_and_interpolation :
    encodes [([0x01], .mem), ([0x18, 0x3A], .rev), ([0x18, 0x3B], .revw), ([0x18, 0x3C], .wav), ([0x3C], .wavr),
      ([0x18, 0x18, 0xF3, 0x43, 0x21], .maxa (.ind16 .sp 0x4321)),
      ([0x18, 0x19, 0x0C], .mina (.direct (.idx (.off5 .x 12)))),
      ([0x18, 0x1A, 0xA1], .emaxd (.direct (.idx (.auto .sp false 1)))),
      ([0x18, 0x1B, 0x77], .emind (.direct (.idx (.auto .y true 7)))),
      ([0x18, 0x1C, 0xF5], .maxm (.direct (.idx (.acc .sp .b)))),
      ([0x18, 0x1D, 0xE1, 0xEC], .minm (.direct (.off9 .x 0x1EC))),
      ([0x18, 0x1E, 0xFA, 0x12, 0x34], .emaxm (.direct (.off16 .pc 0x1234))), ([0x18, 0x1F, 0xEF], .eminm (.indD .y)),
      ([0x18, 0x12, 0xFE, 0xDC], .emacs 0xFEDC), ([0x18, 0x3D, 0x0C], .tbl (.off5 .x 12)),
      ([0x18, 0x3F, 0xA1], .etbl (.auto .sp false 1))] = true := by decide

/-- Branches (46_branch.md) -/
theorem test_encodings_of_branches :
    encodes [([0x20, 0x9A], .bra 0x9A), ([0x21, 0x9A], .brn 0x9A), ([0x22, 0x9A], .bhi 0x9A), ([0x23, 0x9A], .bls 0x9A),
      ([0x24, 0x9A], .bcc 0x9A), ([0x25, 0x9A], .bcs 0x9A), ([0x26, 0x9A], .bne 0x9A), ([0x27, 0x9A], .beq 0x9A),
      ([0x28, 0x9A], .bvc 0x9A), ([0x29, 0x9A], .bvs 0x9A), ([0x2A, 0x9A], .bpl 0x9A), ([0x2B, 0x9A], .bmi 0x9A),
      ([0x2C, 0x9A], .bge 0x9A), ([0x2D, 0x9A], .blt 0x9A), ([0x2E, 0x9A], .bgt 0x9A), ([0x2F, 0x9A], .ble 0x9A),
      ([0x24, 0x9A], .bhs 0x9A), ([0x25, 0x9A], .blo 0x9A), ([0x18, 0x20, 0xFE, 0xDC], .lbra 0xFEDC),
      ([0x18, 0x21, 0xFE, 0xDC], .lbrn 0xFEDC), ([0x18, 0x22, 0xFE, 0xDC], .lbhi 0xFEDC),
      ([0x18, 0x23, 0xFE, 0xDC], .lbls 0xFEDC), ([0x18, 0x24, 0xFE, 0xDC], .lbcc 0xFEDC),
      ([0x18, 0x25, 0xFE, 0xDC], .lbcs 0xFEDC), ([0x18, 0x26, 0xFE, 0xDC], .lbne 0xFEDC),
      ([0x18, 0x27, 0xFE, 0xDC], .lbeq 0xFEDC), ([0x18, 0x28, 0xFE, 0xDC], .lbvc 0xFEDC),
      ([0x18, 0x29, 0xFE, 0xDC], .lbvs 0xFEDC), ([0x18, 0x2A, 0xFE, 0xDC], .lbpl 0xFEDC),
      ([0x18, 0x2B, 0xFE, 0xDC], .lbmi 0xFEDC), ([0x18, 0x2C, 0xFE, 0xDC], .lbge 0xFEDC),
      ([0x18, 0x2D, 0xFE, 0xDC], .lblt 0xFEDC), ([0x18, 0x2E, 0xFE, 0xDC], .lbgt 0xFEDC),
      ([0x18, 0x2F, 0xFE, 0xDC], .lble 0xFEDC), ([0x18, 0x24, 0xFE, 0xDC], .lbhs 0xFEDC),
      ([0x18, 0x25, 0xFE, 0xDC], .lblo 0xFEDC),
      ([0x0E, 0x77, 0x81, 0xF0], .brset (.ix (.idx (.auto .y true 7))) 0x81 0xF0),
      ([0x4F, 0x34, 0x81, 0xF0], .brclr (.dir 0x34) 0x81 0xF0), ([0x04, 0x04, 0x10], .dbeq .d 0x010),
      ([0x04, 0x35, 0x10], .dbne .x 0x110), ([0x04, 0x47, 0x10], .tbeq .sp 0x010), ([0x04, 0x71, 0x10], .tbne .b 0x110),
      ([0x04, 0x80, 0x10], .ibeq .a 0x010), ([0x04, 0xB6, 0x10], .ibne .y 0x110)] = true := by decide

/-- Jumps, subroutines, interrupts (47_jump_sub_int.md) -/
theorem test_encodings_of_jumps :
    encodes [([0x06, 0x12, 0x34], .jmp (.ext 0x1234)), ([0x07, 0x9A], .bsr 0x9A), ([0x17, 0x34], .jsr (.dir 0x34)),
      ([0x4A, 0x12, 0x34, 0x05], .call (.ext 0x1234 0x05)),
      ([0x4B, 0xE1, 0xEC, 0x05], .call (.direct (.off9 .x 0x1EC) 0x05)), ([0x4B, 0xEF], .call (.indD .y)),
      ([0x3D], .rts), ([0x0A], .rtc), ([0x0B], .rti), ([0x3F], .swi), ([0x18, 0x39], .trap 0x39),
      ([0x18, 0xC7], .trap 0xC7)] = true := by decide

/-- Load effective address and stack (48_index_stack_lea.md) -/
theorem test_encodings_of_addresses_and_stack :
    encodes [([0x1B, 0xF5], .leas (.idx (.acc .sp .b))), ([0x1A, 0xE1, 0xEC], .leax (.off9 .x 0x1EC)),
      ([0x19, 0xFA, 0x12, 0x34], .leay (.off16 .pc 0x1234)), ([0x36], .psha), ([0x37], .pshb), ([0x39], .pshc),
      ([0x3B], .pshd), ([0x34], .pshx), ([0x35], .pshy), ([0x32], .pula), ([0x33], .pulb), ([0x38], .pulc),
      ([0x3A], .puld), ([0x30], .pulx), ([0x31], .puly)] = true := by decide

/-- Condition codes, stop, wait, background, null (49_ccr_stop_misc.md) -/
theorem test_encodings_of_condition_codes :
    encodes [([0x10, 0x9A], .andcc 0x9A), ([0x14, 0x9A], .orcc 0x9A), ([0x10, 0xFE], .clc), ([0x10, 0xEF], .cli),
      ([0x10, 0xFD], .clv), ([0x14, 0x01], .sec), ([0x14, 0x10], .sei), ([0x14, 0x02], .sev), ([0xA7], .nop),
      ([0x18, 0x3E], .stop), ([0x3E], .wai), ([0x00], .bgnd)] = true := by decide

/-- Encodings the glossary does not list (30_encoding.md R135) -/
theorem test_encodings_of_undefined_encodings :
    encodes [([0x0D, 0xF7], .undefined (.page1 0x0D 0xF7)), ([0x18, 0x3D, 0xE2], .undefined (.page2 0x3D 0xE2)),
      ([0x18, 0x0A, 0x00, 0xE7], .undefined (.second 0x0A 0x00 0xE7)), ([0x04, 0x43], .undefined (.loop 0x43)),
      ([0x04, 0xC5], .undefined (.loop 0xC5))] = true := by decide

/-! ## One step of one instruction -/

/-- The registers that the tables of 95_test_vectors.md start from, with the PC at $C000. -/
def start : State := { State.reset with a := 0x5A, b := 0xC3, x := 0x1357, y := 0x2468, sp := 0x0C40, pc := 0xC000 }

/-- With bytes in memory. -/
def holding (s : State) (a : Word) (bs : List Byte) : State := placeBytes s a bs

/-- Whether memory holds bytes from an address on. -/
def reads (t : State) (a : Word) : List Byte → Bool
  | [] => true
  | v :: vs => ramByte t a == v && reads t (a + 1) vs

/-- One step with an instruction at the PC leads to a state with a property. -/
def runs (s : State) (code : List Byte) (p : State → Bool) : Bool :=
  match step (placeBytes s s.pc code) with
  | .next t => p t
  | .fault _ => false
  | .refused _ => false

/-- R162, LDAA #$55. -/
theorem test_ldaa : runs start [0x86, 0x55]
    (fun t => t.a == 0x55 && t.ccr == 0xD0 && t.pc == 0xC002) = true := by decide

/-- R166, LDX #$1234. -/
theorem test_ldx : runs start [0xCE, 0x12, 0x34]
    (fun t => t.x == 0x1234 && t.ccr == 0xD0 && t.pc == 0xC003) = true := by decide

/-- R167, LDY #$67. -/
theorem test_ldy : runs start [0xCD, 0x00, 0x67]
    (fun t => t.y == 0x0067 && t.ccr == 0xD0 && t.pc == 0xC003) = true := by decide

/-- R463, BRA *. -/
theorem test_bra : runs start [0x20, 0xFE]
    (fun t => t.ccr == 0xD0 && t.pc == 0xC000) = true := by decide

/-- R482, LBRA *. -/
theorem test_lbra : runs start [0x18, 0x20, 0xFF, 0xFC]
    (fun t => t.ccr == 0xD0 && t.pc == 0xC000) = true := by decide

/-- R501, BRCLR 0,X,#$01,*. -/
theorem test_brclr : runs { start with x := 0x1000 } [0x0F, 0x00, 0x01, 0xFC]
    (fun t => t.ccr == 0xD0 && t.pc == 0xC000) = true := by decide

/-- R467, BEQ +0. -/
theorem test_beq : runs { start with ccr := 0xD4 } [0x27, 0x00]
    (fun t => t.ccr == 0xD4 && t.pc == 0xC002) = true := by decide

/-- R171, STAB -8,Y. -/
theorem test_stab : runs { start with b := 0x42, x := 0x1000, y := 0x2000 } [0x6B, 0x58]
    (fun t => t.ccr == 0xD0 && t.pc == 0xC002 && ramByte t 0x1FF8 == 0x42) = true := by decide

/-- R163, LDAB -20,Y. -/
theorem test_ldab : runs (holding { start with x := 0x1000, y := 0x2000 } 0x1FEC [0x42]) [0xE6, 0xE9, 0xEC]
    (fun t => t.b == 0x42 && t.ccr == 0xD0 && t.pc == 0xC003) = true := by decide

/-- R170, STAA 1,-SP. -/
theorem test_staa : runs { start with a := 0x42, sp := 0x0C00 } [0x6A, 0xAF]
    (fun t => t.sp == 0x0BFF && t.ccr == 0xD0 && t.pc == 0xC002 && ramByte t 0x0BFF == 0x42) = true := by decide

/-- R576, PSHA. -/
theorem test_psha : runs { start with a := 0x42, sp := 0x0C00 } [0x36]
    (fun t => t.sp == 0x0BFF && t.ccr == 0xD0 && t.pc == 0xC001 && ramByte t 0x0BFF == 0x42) = true := by decide

/-- R174, STX 2,-SP. -/
theorem test_stx : runs { start with x := 0x1234, sp := 0x0C00 } [0x6E, 0xAE]
    (fun t => t.sp == 0x0BFE && t.ccr == 0xD0 && t.pc == 0xC002 && reads t 0x0BFE [0x12, 0x34]) = true := by decide

/-- R197, MOVW 2,X+,4,+Y. -/
theorem test_movw : runs (holding { start with x := 0x1000, y := 0x2000 } 0x1000 [0xAB, 0xCD]) [0x18, 0x02, 0x31, 0x63]
    (fun t => t.x == 0x1002 && t.y == 0x2004 && t.ccr == 0xD0 && t.pc == 0xC004 && reads t 0x2004 [0xAB, 0xCD]) = true
      := by decide

/-- R521, JMP [D,PC]. -/
theorem test_jmp : runs (holding (holding (holding { start with a := 0x00, b := 0x02, pc := 0x2000 } 0x2002 [0x30])
    0x2004 [0x31]) 0x2006 [0x32]) [0x05, 0xFF]
    (fun t => t.ccr == 0xD0 && t.pc == 0x3100) = true := by decide

/-- R195, MOVB $2000 2,PC. -/
theorem test_movb : runs (holding { start with pc := 0x1000 } 0x2000 [0x42]) [0x18, 0x09, 0xC2, 0x20, 0x00]
    (fun t => t.ccr == 0xD0 && t.pc == 0x1005 && ramByte t 0x1007 == 0x42) = true := by decide

/-- R566, LEAS 4,Y+. -/
theorem test_leas : runs { start with y := 0x2000, sp := 0x0C00 } [0x1B, 0x73]
    (fun t => t.y == 0x2004 && t.sp == 0x2000 && t.ccr == 0xD0 && t.pc == 0xC002) = true := by decide

/-- R567, LEAX 4,Y+. -/
theorem test_leax : runs { start with x := 0x1000, y := 0x2000 } [0x1A, 0x73]
    (fun t => t.x == 0x2000 && t.y == 0x2004 && t.ccr == 0xD0 && t.pc == 0xC002) = true := by decide

/-- R567, LEAY 4,X+. -/
theorem test_leay : runs { start with x := 0x1000, y := 0x2000 } [0x19, 0x33]
    (fun t => t.x == 0x1004 && t.y == 0x1000 && t.ccr == 0xD0 && t.pc == 0xC002) = true := by decide

/-- R586, PULX. -/
theorem test_pulx : runs (holding { start with sp := 0x01F0 } 0x01F0 [0x12, 0x34]) [0x30]
    (fun t => t.x == 0x1234 && t.sp == 0x01F2 && t.ccr == 0xD0 && t.pc == 0xC001) = true := by decide

/-- R187, TFR SP,X. -/
theorem test_tfr : runs { start with sp := 0x0BF0 } [0xB7, 0x75]
    (fun t => t.x == 0x0BF0 && t.ccr == 0xD0 && t.pc == 0xC002) = true := by decide

/-- R189, EXG A,D. -/
theorem test_exg : runs { start with a := 0x07, b := 0x99 } [0xB7, 0x84]
    (fun t => t.a == 0x00 && t.b == 0x07 && t.ccr == 0xD0 && t.pc == 0xC002) = true := by decide

/-- R436, EMIND 2,X+. -/
theorem test_emind : runs (holding { start with x := 0x1000, a := 0x12, b := 0x34 } 0x1000 [0x10]) [0x18, 0x1B, 0x31]
    (fun t => t.a == 0x10 && t.b == 0x00 && t.x == 0x1002 && t.ccr == 0xD0 && t.pc == 0xC003) = true := by decide

/-- R437, EMAXM 2,X+. -/
theorem test_emaxm : runs (holding { start with x := 0x1000, a := 0x12, b := 0x34 } 0x1000 [0x10]) [0x18, 0x1E, 0x31]
    (fun t => t.x == 0x1002 && t.ccr == 0xD0 && t.pc == 0xC003 && reads t 0x1000 [0x12, 0x34]) = true := by decide

/-- R432, MINA 5,PC. -/
theorem test_mina : runs (holding { start with a := 0x90 } 0xC008 [0x7F]) [0x18, 0x19, 0xC5]
    (fun t => t.a == 0x7F && t.ccr == 0xD2 && t.pc == 0xC003) = true := by decide

/-- R431, MAXA 5,PC. -/
theorem test_maxa : runs (holding { start with a := 0x10 } 0xC008 [0x20]) [0x18, 0x18, 0xC5]
    (fun t => t.a == 0x20 && t.ccr == 0xD9 && t.pc == 0xC003) = true := by decide

/-- R451, TBL A,X. -/
theorem test_tbl : runs (holding { start with x := 0x1000, a := 0x02, b := 0x80 } 0x1002 [0x10, 0x30]) [0x18, 0x3D,
    0xE4]
    (fun t => t.a == 0x20 && t.ccr == 0xD0 && t.pc == 0xC003) = true := by decide

/-- R411, MEM. -/
theorem test_mem : runs (holding { start with a := 0x70, x := 0x1000, y := 0x0900 } 0x1000 [0x60, 0x80, 0x04, 0x04])
    [0x01]
    (fun t => t.x == 0x1004 && t.y == 0x0901 && t.pc == 0xC001 && ramByte t 0x0900 == 0x40) = true := by decide

/-- R164, LDD #$1234. -/
theorem test_ldd : runs { start with ccr := 0xDF } [0xCC, 0x12, 0x34]
    (fun t => t.a == 0x12 && t.b == 0x34 && t.ccr == 0xD1 && t.pc == 0xC003) = true := by decide

/-- R165, LDS #$0C00. -/
theorem test_lds : runs start [0xCF, 0x0C, 0x00]
    (fun t => t.sp == 0x0C00 && t.ccr == 0xD0 && t.pc == 0xC003) = true := by decide

/-- R172, STD $0800. -/
theorem test_std : runs { start with a := 0x80, b := 0x01 } [0x7C, 0x08, 0x00]
    (fun t => t.ccr == 0xD8 && t.pc == 0xC003 && reads t 0x0800 [0x80, 0x01]) = true := by decide

/-- R173, STS $0810. -/
theorem test_sts : runs { start with sp := 0x0BFE } [0x7F, 0x08, 0x10]
    (fun t => t.ccr == 0xD0 && t.pc == 0xC003 && reads t 0x0810 [0x0B, 0xFE]) = true := by decide

/-- R175, STY 2,X+. -/
theorem test_sty : runs { start with y := 0x0000, x := 0x2000 } [0x6D, 0x31]
    (fun t => t.x == 0x2002 && t.ccr == 0xD4 && t.pc == 0xC002 && reads t 0x2000 [0x00, 0x00]) = true := by decide

/-- R180, TAB. -/
theorem test_tab : runs { start with a := 0x90, b := 0x00 } [0x18, 0x0E]
    (fun t => t.b == 0x90 && t.ccr == 0xD8 && t.pc == 0xC002) = true := by decide

/-- R181, TBA. -/
theorem test_tba : runs { start with a := 0x11, b := 0x00, ccr := 0xD3 } [0x18, 0x0F]
    (fun t => t.a == 0x00 && t.ccr == 0xD5 && t.pc == 0xC002) = true := by decide

/-- R188, SEX B,D. -/
theorem test_sex : runs { start with b := 0x80, a := 0x00 } [0xB7, 0x14]
    (fun t => t.a == 0xFF && t.ccr == 0xD0 && t.pc == 0xC002) = true := by decide

/-- R224, ABA. -/
theorem test_aba : runs { start with a := 0x38, b := 0x49 } [0x18, 0x06]
    (fun t => t.a == 0x81 && t.ccr == 0xFA && t.pc == 0xC002) = true := by decide

/-- R240, DAA. -/
theorem test_daa : runs { start with a := 0x81, ccr := 0xFA } [0x18, 0x07]
    (fun t => t.a == 0x87 && t.pc == 0xC002) = true := by decide

/-- R225, ABX. -/
theorem test_abx : runs { start with b := 0x02, x := 0x10FF } [0x1A, 0xE5]
    (fun t => t.x == 0x1101 && t.ccr == 0xD0 && t.pc == 0xC002) = true := by decide

/-- R226, ABY. -/
theorem test_aby : runs { start with b := 0x01, y := 0xFFFF } [0x19, 0xED]
    (fun t => t.y == 0x0000 && t.ccr == 0xD0 && t.pc == 0xC002) = true := by decide

/-- R227, ADCA #$00. -/
theorem test_adca : runs { start with a := 0xFF, ccr := 0xD1 } [0x89, 0x00]
    (fun t => t.a == 0x00 && t.ccr == 0xF5 && t.pc == 0xC002) = true := by decide

/-- R228, ADCB #$00. -/
theorem test_adcb : runs { start with b := 0x7F, ccr := 0xD1 } [0xC9, 0x00]
    (fun t => t.b == 0x80 && t.ccr == 0xFA && t.pc == 0xC002) = true := by decide

/-- R229, ADDA #$80. -/
theorem test_adda : runs { start with a := 0x80 } [0x8B, 0x80]
    (fun t => t.a == 0x00 && t.ccr == 0xD7 && t.pc == 0xC002) = true := by decide

/-- R230, ADDB #$01. -/
theorem test_addb : runs { start with b := 0x0F } [0xCB, 0x01]
    (fun t => t.b == 0x10 && t.ccr == 0xF0 && t.pc == 0xC002) = true := by decide

/-- R231, ADDD #$0001. -/
theorem test_addd : runs { start with ccr := 0xF0, a := 0x7F, b := 0xFF } [0xC3, 0x00, 0x01]
    (fun t => t.a == 0x80 && t.b == 0x00 && t.ccr == 0xFA && t.pc == 0xC003) = true := by decide

/-- R232, SBA. -/
theorem test_sba : runs { start with a := 0x10, b := 0x20 } [0x18, 0x16]
    (fun t => t.a == 0xF0 && t.ccr == 0xD9 && t.pc == 0xC002) = true := by decide

/-- R233, SBCA #$00. -/
theorem test_sbca : runs { start with a := 0x00, ccr := 0xD1 } [0x82, 0x00]
    (fun t => t.a == 0xFF && t.ccr == 0xD9 && t.pc == 0xC002) = true := by decide

/-- R234, SBCB #$01. -/
theorem test_sbcb : runs { start with b := 0x80 } [0xC2, 0x01]
    (fun t => t.b == 0x7F && t.ccr == 0xD2 && t.pc == 0xC002) = true := by decide

/-- R235, SUBA #$05. -/
theorem test_suba : runs { start with a := 0x05 } [0x80, 0x05]
    (fun t => t.a == 0x00 && t.ccr == 0xD4 && t.pc == 0xC002) = true := by decide

/-- R236, SUBB #$01. -/
theorem test_subb : runs { start with b := 0x00 } [0xC0, 0x01]
    (fun t => t.b == 0xFF && t.ccr == 0xD9 && t.pc == 0xC002) = true := by decide

/-- R237, SUBD #$0001. -/
theorem test_subd : runs { start with a := 0x80, b := 0x00 } [0x83, 0x00, 0x01]
    (fun t => t.a == 0x7F && t.b == 0xFF && t.ccr == 0xD2 && t.pc == 0xC003) = true := by decide

/-- R260, CBA. -/
theorem test_cba : runs { start with a := 0x05, b := 0x05 } [0x18, 0x17]
    (fun t => t.ccr == 0xD4 && t.pc == 0xC002) = true := by decide

/-- R261, CMPA #$80. -/
theorem test_cmpa : runs { start with a := 0x7F } [0x81, 0x80]
    (fun t => t.ccr == 0xDB && t.pc == 0xC002) = true := by decide

/-- R262, CMPB #$01. -/
theorem test_cmpb : runs { start with b := 0x00 } [0xC1, 0x01]
    (fun t => t.ccr == 0xD9 && t.pc == 0xC002) = true := by decide

/-- R263, CPD #$0001. -/
theorem test_cpd : runs { start with a := 0x00, b := 0x00 } [0x8C, 0x00, 0x01]
    (fun t => t.ccr == 0xD9 && t.pc == 0xC003) = true := by decide

/-- R265, CPX #$0001. -/
theorem test_cpx : runs { start with x := 0x8000 } [0x8E, 0x00, 0x01]
    (fun t => t.ccr == 0xD2 && t.pc == 0xC003) = true := by decide

/-- R266, CPY #$1234. -/
theorem test_cpy : runs { start with y := 0x1234 } [0x8D, 0x12, 0x34]
    (fun t => t.ccr == 0xD4 && t.pc == 0xC003) = true := by decide

/-- R264, CPS #$0C00. -/
theorem test_cps : runs { start with sp := 0x0BFF } [0x8F, 0x0C, 0x00]
    (fun t => t.ccr == 0xD9 && t.pc == 0xC003) = true := by decide

/-- R245, DEC $0800. -/
theorem test_dec : runs { start with ccr := 0xD1 } [0x73, 0x08, 0x00]
    (fun t => t.ccr == 0xD9 && t.pc == 0xC003 && ramByte t 0x0800 == 0xFF) = true := by decide

/-- R246, DECA. -/
theorem test_deca : runs { start with a := 0x80 } [0x43]
    (fun t => t.a == 0x7F && t.ccr == 0xD2 && t.pc == 0xC001) = true := by decide

/-- R247, DECB. -/
theorem test_decb : runs { start with b := 0x01 } [0x53]
    (fun t => t.b == 0x00 && t.ccr == 0xD4 && t.pc == 0xC001) = true := by decide

/-- R249, DEX. -/
theorem test_dex : runs { start with x := 0x0000 } [0x09]
    (fun t => t.x == 0xFFFF && t.ccr == 0xD0 && t.pc == 0xC001) = true := by decide

/-- R250, DEY. -/
theorem test_dey : runs { start with y := 0x0001, ccr := 0xDB } [0x03]
    (fun t => t.y == 0x0000 && t.ccr == 0xDF && t.pc == 0xC001) = true := by decide

/-- R248, DES. -/
theorem test_des : runs { start with sp := 0x0000 } [0x1B, 0x9F]
    (fun t => t.sp == 0xFFFF && t.ccr == 0xD0 && t.pc == 0xC002) = true := by decide

/-- R251, INC $0800. -/
theorem test_inc : runs (holding start 0x0800 [0xFF]) [0x72, 0x08, 0x00]
    (fun t => t.ccr == 0xD4 && t.pc == 0xC003 && ramByte t 0x0800 == 0x00) = true := by decide

/-- R252, INCA. -/
theorem test_inca : runs { start with a := 0x7F } [0x42]
    (fun t => t.a == 0x80 && t.ccr == 0xDA && t.pc == 0xC001) = true := by decide

/-- R253, INCB. -/
theorem test_incb : runs { start with b := 0xFF, ccr := 0xD1 } [0x52]
    (fun t => t.b == 0x00 && t.ccr == 0xD5 && t.pc == 0xC001) = true := by decide

/-- R255, INX. -/
theorem test_inx : runs { start with x := 0xFFFF } [0x08]
    (fun t => t.x == 0x0000 && t.ccr == 0xD4 && t.pc == 0xC001) = true := by decide

/-- R256, INY. -/
theorem test_iny : runs { start with y := 0x0000, ccr := 0xD4 } [0x02]
    (fun t => t.y == 0x0001 && t.ccr == 0xD0 && t.pc == 0xC001) = true := by decide

/-- R254, INS. -/
theorem test_ins : runs { start with sp := 0xFFFF } [0x1B, 0x81]
    (fun t => t.sp == 0x0000 && t.ccr == 0xD0 && t.pc == 0xC002) = true := by decide

/-- R270, TST $0800. -/
theorem test_tst : runs (holding { start with ccr := 0xD3 } 0x0800 [0x80]) [0xF7, 0x08, 0x00]
    (fun t => t.ccr == 0xD8 && t.pc == 0xC003) = true := by decide

/-- R271, TSTA. -/
theorem test_tsta : runs { start with a := 0x00, ccr := 0xDB } [0x97]
    (fun t => t.ccr == 0xD4 && t.pc == 0xC001) = true := by decide

/-- R272, TSTB. -/
theorem test_tstb : runs { start with b := 0x7F, ccr := 0xDF } [0xD7]
    (fun t => t.ccr == 0xD0 && t.pc == 0xC001) = true := by decide

/-- R306, NEG $0800. -/
theorem test_neg : runs (holding start 0x0800 [0x01]) [0x70, 0x08, 0x00]
    (fun t => t.ccr == 0xD9 && t.pc == 0xC003 && ramByte t 0x0800 == 0xFF) = true := by decide

/-- R307, NEGA. -/
theorem test_nega : runs { start with a := 0x80 } [0x40]
    (fun t => t.ccr == 0xDB && t.pc == 0xC001) = true := by decide

/-- R308, NEGB. -/
theorem test_negb : runs { start with b := 0x00, ccr := 0xD1 } [0x50]
    (fun t => t.ccr == 0xD4 && t.pc == 0xC001) = true := by decide

/-- R291, ANDA #$3C. -/
theorem test_anda : runs { start with a := 0xF0, ccr := 0xD3 } [0x84, 0x3C]
    (fun t => t.a == 0x30 && t.ccr == 0xD1 && t.pc == 0xC002) = true := by decide

/-- R292, ANDB #$F0. -/
theorem test_andb : runs { start with b := 0x0F } [0xC4, 0xF0]
    (fun t => t.b == 0x00 && t.ccr == 0xD4 && t.pc == 0xC002) = true := by decide

/-- R293, EORA #$0F. -/
theorem test_eora : runs { start with a := 0xFF } [0x88, 0x0F]
    (fun t => t.a == 0xF0 && t.ccr == 0xD8 && t.pc == 0xC002) = true := by decide

/-- R294, EORB #$AA. -/
theorem test_eorb : runs { start with b := 0xAA } [0xC8, 0xAA]
    (fun t => t.b == 0x00 && t.ccr == 0xD4 && t.pc == 0xC002) = true := by decide

/-- R295, ORAA #$80. -/
theorem test_oraa : runs { start with a := 0x01 } [0x8A, 0x80]
    (fun t => t.a == 0x81 && t.ccr == 0xD8 && t.pc == 0xC002) = true := by decide

/-- R296, ORAB #$00. -/
theorem test_orab : runs { start with b := 0x00, ccr := 0xD2 } [0xCA, 0x00]
    (fun t => t.ccr == 0xD4 && t.pc == 0xC002) = true := by decide

/-- R297, BITA #$80. -/
theorem test_bita : runs { start with a := 0x80 } [0x85, 0x80]
    (fun t => t.ccr == 0xD8 && t.pc == 0xC002) = true := by decide

/-- R298, BITB #$F0. -/
theorem test_bitb : runs { start with b := 0x0F } [0xC5, 0xF0]
    (fun t => t.ccr == 0xD4 && t.pc == 0xC002) = true := by decide

/-- R300, CLR $0800. -/
theorem test_clr : runs (holding { start with ccr := 0xFB } 0x0800 [0x55]) [0x79, 0x08, 0x00]
    (fun t => t.ccr == 0xF4 && t.pc == 0xC003 && ramByte t 0x0800 == 0x00) = true := by decide

/-- R301, CLRA. -/
theorem test_clra : runs { start with a := 0xFF, ccr := 0xD9 } [0x87]
    (fun t => t.a == 0x00 && t.ccr == 0xD4 && t.pc == 0xC001) = true := by decide

/-- R302, CLRB. -/
theorem test_clrb : runs { start with b := 0xFF } [0xC7]
    (fun t => t.b == 0x00 && t.ccr == 0xD4 && t.pc == 0xC001) = true := by decide

/-- R303, COM $0800. -/
theorem test_com : runs start [0x71, 0x08, 0x00]
    (fun t => t.ccr == 0xD9 && t.pc == 0xC003 && ramByte t 0x0800 == 0xFF) = true := by decide

/-- R304, COMA. -/
theorem test_coma : runs { start with a := 0xFF } [0x41]
    (fun t => t.a == 0x00 && t.ccr == 0xD5 && t.pc == 0xC001) = true := by decide

/-- R305, COMB. -/
theorem test_comb : runs { start with b := 0x55, ccr := 0xD2 } [0x51]
    (fun t => t.b == 0xAA && t.ccr == 0xD9 && t.pc == 0xC001) = true := by decide

/-- R311, BCLR $40,#$0F. -/
theorem test_bclr : runs (holding start 0x0040 [0xFF]) [0x4D, 0x40, 0x0F]
    (fun t => t.ccr == 0xD8 && t.pc == 0xC003 && ramByte t 0x0040 == 0xF0) = true := by decide

/-- R312, BSET $0900,#$80. -/
theorem test_bset : runs (holding start 0x0900 [0x01]) [0x1C, 0x09, 0x00, 0x80]
    (fun t => t.ccr == 0xD8 && t.pc == 0xC004 && ramByte t 0x0900 == 0x81) = true := by decide

/-- R345, MUL. -/
theorem test_mul : runs { start with a := 0xFF, b := 0xFF, ccr := 0xD1 } [0x12]
    (fun t => t.a == 0xFE && t.b == 0x01 && t.ccr == 0xD0 && t.pc == 0xC001) = true := by decide

/-- R346, EMUL. -/
theorem test_emul : runs { start with y := 0xFFFF, a := 0xFF, b := 0xFF } [0x13]
    (fun t => t.a == 0x00 && t.b == 0x01 && t.y == 0xFFFE && t.ccr == 0xD8 && t.pc == 0xC001) = true := by decide

/-- R347, EMULS. -/
theorem test_emuls : runs { start with y := 0x0002, a := 0xFF, b := 0xFF } [0x18, 0x13]
    (fun t => t.b == 0xFE && t.y == 0xFFFF && t.ccr == 0xD9 && t.pc == 0xC002) = true := by decide

/-- R350, EDIV. -/
theorem test_ediv : runs { start with y := 0x0001, x := 0x0002, a := 0x00, b := 0x00 } [0x11]
    (fun t => t.y == 0x8000 && t.ccr == 0xD8 && t.pc == 0xC001) = true := by decide

/-- R351, EDIVS. -/
theorem test_edivs : runs { start with y := 0xFFFF, x := 0x0002, a := 0xFF, b := 0xF9 } [0x18, 0x14]
    (fun t => t.b == 0xFF && t.y == 0xFFFD && t.ccr == 0xD8 && t.pc == 0xC002) = true := by decide

/-- R352, FDIV. -/
theorem test_fdiv : runs { start with x := 0x0002, a := 0x00, b := 0x01 } [0x18, 0x11]
    (fun t => t.b == 0x00 && t.x == 0x8000 && t.ccr == 0xD0 && t.pc == 0xC002) = true := by decide

/-- R353, IDIV. -/
theorem test_idiv : runs { start with x := 0x0002, a := 0x00, b := 0x07 } [0x18, 0x10]
    (fun t => t.b == 0x01 && t.x == 0x0003 && t.ccr == 0xD0 && t.pc == 0xC002) = true := by decide

/-- R354, IDIVS. -/
theorem test_idivs : runs { start with x := 0x0002, a := 0xFF, b := 0xF9 } [0x18, 0x15]
    (fun t => t.b == 0xFF && t.x == 0xFFFD && t.ccr == 0xD8 && t.pc == 0xC002) = true := by decide

/-- R375, ASL $0800. -/
theorem test_asl : runs (holding start 0x0800 [0xC0]) [0x78, 0x08, 0x00]
    (fun t => t.ccr == 0xD9 && t.pc == 0xC003 && ramByte t 0x0800 == 0x80) = true := by decide

/-- R376, ASLA. -/
theorem test_asla : runs { start with a := 0x40 } [0x48]
    (fun t => t.a == 0x80 && t.ccr == 0xDA && t.pc == 0xC001) = true := by decide

/-- R377, ASLB. -/
theorem test_aslb : runs { start with b := 0x80 } [0x58]
    (fun t => t.b == 0x00 && t.ccr == 0xD7 && t.pc == 0xC001) = true := by decide

/-- R378, ASLD. -/
theorem test_asld : runs { start with a := 0x40, b := 0x01 } [0x59]
    (fun t => t.a == 0x80 && t.b == 0x02 && t.ccr == 0xDA && t.pc == 0xC001) = true := by decide

/-- R380, ASR $0800. -/
theorem test_asr : runs (holding start 0x0800 [0x81]) [0x77, 0x08, 0x00]
    (fun t => t.ccr == 0xD9 && t.pc == 0xC003 && ramByte t 0x0800 == 0xC0) = true := by decide

/-- R381, ASRA. -/
theorem test_asra : runs { start with a := 0x01 } [0x47]
    (fun t => t.a == 0x00 && t.ccr == 0xD7 && t.pc == 0xC001) = true := by decide

/-- R382, ASRB. -/
theorem test_asrb : runs { start with b := 0x80 } [0x57]
    (fun t => t.b == 0xC0 && t.ccr == 0xDA && t.pc == 0xC001) = true := by decide

/-- R383, LSR $0800. -/
theorem test_lsr : runs (holding start 0x0800 [0x01]) [0x74, 0x08, 0x00]
    (fun t => t.ccr == 0xD7 && t.pc == 0xC003 && ramByte t 0x0800 == 0x00) = true := by decide

/-- R384, LSRA. -/
theorem test_lsra : runs { start with a := 0x80, ccr := 0xD8 } [0x44]
    (fun t => t.a == 0x40 && t.ccr == 0xD0 && t.pc == 0xC001) = true := by decide

/-- R385, LSRB. -/
theorem test_lsrb : runs { start with b := 0xFF } [0x54]
    (fun t => t.b == 0x7F && t.ccr == 0xD3 && t.pc == 0xC001) = true := by decide

/-- R386, LSRD. -/
theorem test_lsrd : runs { start with a := 0x00, b := 0x01 } [0x49]
    (fun t => t.b == 0x00 && t.ccr == 0xD7 && t.pc == 0xC001) = true := by decide

/-- R390, ROL $0800. -/
theorem test_rol : runs (holding { start with ccr := 0xD1 } 0x0800 [0x80]) [0x75, 0x08, 0x00]
    (fun t => t.ccr == 0xD3 && t.pc == 0xC003 && ramByte t 0x0800 == 0x01) = true := by decide

/-- R391, ROLA. -/
theorem test_rola : runs { start with a := 0x40 } [0x45]
    (fun t => t.a == 0x80 && t.ccr == 0xDA && t.pc == 0xC001) = true := by decide

/-- R392, ROLB. -/
theorem test_rolb : runs { start with b := 0x00, ccr := 0xD1 } [0x55]
    (fun t => t.b == 0x01 && t.ccr == 0xD0 && t.pc == 0xC001) = true := by decide

/-- R393, ROR $0800. -/
theorem test_ror : runs (holding start 0x0800 [0x01]) [0x76, 0x08, 0x00]
    (fun t => t.ccr == 0xD7 && t.pc == 0xC003 && ramByte t 0x0800 == 0x00) = true := by decide

/-- R394, RORA. -/
theorem test_rora : runs { start with a := 0x00, ccr := 0xD1 } [0x46]
    (fun t => t.a == 0x80 && t.ccr == 0xDA && t.pc == 0xC001) = true := by decide

/-- R395, RORB. -/
theorem test_rorb : runs { start with b := 0x81, ccr := 0xD1 } [0x56]
    (fun t => t.b == 0xC0 && t.ccr == 0xD9 && t.pc == 0xC001) = true := by decide

/-- R412, REV. -/
theorem test_rev : runs (holding (holding { start with a := 0xFF, x := 0x0900, y := 0x0800 } 0x0800 [0x40, 0x30])
    0x0901 [0x01, 0xFE, 0x02, 0xFE, 0xFF]) [0x18, 0x3A]
    (fun t => t.x == 0x0906 && t.pc == 0xC002 && ramByte t 0x0802 == 0x30) = true := by decide

/-- R413, REVW. -/
theorem test_revw : runs (holding (holding (holding { start with a := 0xFF, x := 0x0900, y := 0x0A00 } 0x0800 [0x40,
    0x30]) 0x0900 [0x08]) 0x0902 [0x08, 0x01, 0xFF, 0xFE, 0x08, 0x02, 0xFF, 0xFE, 0xFF, 0xFF]) [0x18, 0x3B]
    (fun t => t.x == 0x090C && t.pc == 0xC002 && ramByte t 0x0802 == 0x30) = true := by decide

/-- R415, WAV. -/
theorem test_wav : runs (holding (holding { start with b := 0x02, x := 0x0900, y := 0x0800 } 0x0800 [0x80, 0x40])
    0x0900 [0x10, 0x20]) [0x18, 0x3C]
    (fun t => t.a == 0x10 && t.b == 0x00 && t.x == 0x00C0 && t.y == 0x0000 && t.pc == 0xC002) = true := by decide

/-- R433, MAXM 1,Y+. -/
theorem test_maxm : runs (holding { start with a := 0x80, y := 0x0800 } 0x0800 [0x10]) [0x18, 0x1C, 0x70]
    (fun t => t.y == 0x0801 && t.ccr == 0xD2 && t.pc == 0xC003 && ramByte t 0x0800 == 0x80) = true := by decide

/-- R434, MINM 0,Y. -/
theorem test_minm : runs (holding { start with a := 0x10, y := 0x0800 } 0x0800 [0x80]) [0x18, 0x1D, 0x40]
    (fun t => t.ccr == 0xDB && t.pc == 0xC003 && ramByte t 0x0800 == 0x10) = true := by decide

/-- R435, EMAXD 0,X. -/
theorem test_emaxd : runs (holding { start with x := 0x0900, a := 0x12, b := 0x34 } 0x0900 [0x80]) [0x18, 0x1A, 0x00]
    (fun t => t.a == 0x80 && t.b == 0x00 && t.ccr == 0xDB && t.pc == 0xC003) = true := by decide

/-- R438, EMINM 0,X. -/
theorem test_eminm : runs (holding { start with x := 0x0900, a := 0x12, b := 0x34 } 0x0900 [0xFF, 0xFF]) [0x18, 0x1F,
    0x00]
    (fun t => t.ccr == 0xD1 && t.pc == 0xC003 && reads t 0x0900 [0x12, 0x34]) = true := by decide

/-- R445, EMACS $0800. -/
theorem test_emacs : runs (holding (holding (holding { start with x := 0x0900, y := 0x0910 } 0x0803 [0x01]) 0x0901
    [0x02]) 0x0910 [0xFF, 0xFF]) [0x18, 0x12, 0x08, 0x00]
    (fun t => t.ccr == 0xD8 && t.pc == 0xC004 && reads t 0x0800 [0xFF, 0xFF, 0xFF, 0xFF]) = true := by decide

/-- R452, ETBL 0,X. -/
theorem test_etbl : runs (holding (holding { start with b := 0xC0, x := 0x0900 } 0x0900 [0x10]) 0x0902 [0x20]) [0x18,
    0x3F, 0x00]
    (fun t => t.a == 0x1C && t.b == 0x00 && t.ccr == 0xD0 && t.pc == 0xC003) = true := by decide

/-- R464, BRN. -/
theorem test_brn : runs start [0x21, 0x7F]
    (fun t => t.ccr == 0xD0 && t.pc == 0xC002) = true := by decide

/-- R465, BCC. -/
theorem test_bcc : runs { start with pc := 0x2000 } [0x24, 0x10]
    (fun t => t.ccr == 0xD0 && t.pc == 0x2012) = true := by decide

/-- R466, BCS. -/
theorem test_bcs : runs { start with ccr := 0xD1, pc := 0x2000 } [0x25, 0x10]
    (fun t => t.ccr == 0xD1 && t.pc == 0x2012) = true := by decide

/-- R469, BNE. -/
theorem test_bne : runs { start with ccr := 0xD4, pc := 0x2000 } [0x26, 0xFC]
    (fun t => t.ccr == 0xD4 && t.pc == 0x2002) = true := by decide

/-- R468, BMI. -/
theorem test_bmi : runs { start with ccr := 0xD8, pc := 0x2000 } [0x2B, 0x02]
    (fun t => t.ccr == 0xD8 && t.pc == 0x2004) = true := by decide

/-- R470, BPL. -/
theorem test_bpl : runs { start with ccr := 0xD8, pc := 0x2000 } [0x2A, 0x02]
    (fun t => t.ccr == 0xD8 && t.pc == 0x2002) = true := by decide

/-- R472, BVS. -/
theorem test_bvs : runs { start with ccr := 0xD2, pc := 0x2000 } [0x29, 0x02]
    (fun t => t.ccr == 0xD2 && t.pc == 0x2004) = true := by decide

/-- R471, BVC. -/
theorem test_bvc : runs { start with ccr := 0xD2, pc := 0x2000 } [0x28, 0x02]
    (fun t => t.ccr == 0xD2 && t.pc == 0x2002) = true := by decide

/-- R473, BHI. -/
theorem test_bhi : runs { start with pc := 0x2000 } [0x22, 0x02]
    (fun t => t.ccr == 0xD0 && t.pc == 0x2004) = true := by decide

/-- R476, BLS. -/
theorem test_bls : runs { start with ccr := 0xD1, pc := 0x2000 } [0x23, 0x02]
    (fun t => t.ccr == 0xD1 && t.pc == 0x2004) = true := by decide

/-- R477, BGE. -/
theorem test_bge : runs { start with ccr := 0xDA, pc := 0x2000 } [0x2C, 0x02]
    (fun t => t.ccr == 0xDA && t.pc == 0x2004) = true := by decide

/-- R480, BLT. -/
theorem test_blt : runs { start with ccr := 0xD8, pc := 0x2000 } [0x2D, 0x02]
    (fun t => t.ccr == 0xD8 && t.pc == 0x2004) = true := by decide

/-- R478, BGT. -/
theorem test_bgt : runs { start with pc := 0x2000 } [0x2E, 0x02]
    (fun t => t.ccr == 0xD0 && t.pc == 0x2004) = true := by decide

/-- R479, BLE. -/
theorem test_ble : runs { start with ccr := 0xD2, pc := 0x2000 } [0x2F, 0x02]
    (fun t => t.ccr == 0xD2 && t.pc == 0x2004) = true := by decide

/-- R486, LBEQ. -/
theorem test_lbeq : runs { start with ccr := 0xD4 } [0x18, 0x27, 0x01, 0x00]
    (fun t => t.ccr == 0xD4 && t.pc == 0xC104) = true := by decide

/-- R483, LBRN. -/
theorem test_lbrn : runs start [0x18, 0x21, 0x12, 0x34]
    (fun t => t.ccr == 0xD0 && t.pc == 0xC004) = true := by decide

/-- R488, LBNE. -/
theorem test_lbne : runs { start with pc := 0x2000 } [0x18, 0x26, 0xFF, 0x00]
    (fun t => t.ccr == 0xD0 && t.pc == 0x1F04) = true := by decide

/-- R496, LBGE. -/
theorem test_lbge : runs { start with ccr := 0xD8, pc := 0x2000 } [0x18, 0x2C, 0x00, 0x10]
    (fun t => t.ccr == 0xD8 && t.pc == 0x2004) = true := by decide

/-- R502, BRSET $1234,#$03,*+13. -/
theorem test_brset : runs (holding { start with pc := 0x3000 } 0x1234 [0x07]) [0x1E, 0x12, 0x34, 0x03, 0x08]
    (fun t => t.ccr == 0xD0 && t.pc == 0x300D) = true := by decide

/-- R506, DBEQ X,*+19. -/
theorem test_dbeq : runs { start with x := 0x0001 } [0x04, 0x05, 0x10]
    (fun t => t.x == 0x0000 && t.ccr == 0xD0 && t.pc == 0xC013) = true := by decide

/-- R507, DBNE B,*-2. -/
theorem test_dbne : runs { start with b := 0x05, pc := 0x2007 } [0x04, 0x31, 0xFB]
    (fun t => t.b == 0x04 && t.ccr == 0xD0 && t.pc == 0x2005) = true := by decide

/-- R508, IBEQ A,*+8. -/
theorem test_ibeq : runs { start with a := 0xFF } [0x04, 0x80, 0x05]
    (fun t => t.a == 0x00 && t.ccr == 0xD0 && t.pc == 0xC008) = true := by decide

/-- R509, IBNE Y,*-13. -/
theorem test_ibne : runs { start with y := 0xFFFF } [0x04, 0xB6, 0xF0]
    (fun t => t.y == 0x0000 && t.ccr == 0xD0 && t.pc == 0xC003) = true := by decide

/-- R510, TBEQ D,*+35. -/
theorem test_tbeq : runs { start with a := 0x00, b := 0x00 } [0x04, 0x44, 0x20]
    (fun t => t.ccr == 0xD0 && t.pc == 0xC023) = true := by decide

/-- R511, TBNE SP,*. -/
theorem test_tbne : runs { start with sp := 0x0C00 } [0x04, 0x77, 0xFD]
    (fun t => t.ccr == 0xD0 && t.pc == 0xC000) = true := by decide

/-- R522, BSR. -/
theorem test_bsr : runs { start with sp := 0x0C00, pc := 0x2000 } [0x07, 0x10]
    (fun t => t.sp == 0x0BFE && t.ccr == 0xD0 && t.pc == 0x2012 && reads t 0x0BFE [0x20, 0x02]) = true := by decide

/-- R523, JSR $4000. -/
theorem test_jsr : runs { start with sp := 0x0C00, pc := 0x2000 } [0x16, 0x40, 0x00]
    (fun t => t.sp == 0x0BFE && t.ccr == 0xD0 && t.pc == 0x4000 && reads t 0x0BFE [0x20, 0x03]) = true := by decide

/-- R525, RTS. -/
theorem test_rts : runs (holding { start with sp := 0x0BFE } 0x0BFE [0x20, 0x03]) [0x3D]
    (fun t => t.sp == 0x0C00 && t.ccr == 0xD0 && t.pc == 0x2003) = true := by decide

/-- R524, CALL $8000,5. -/
theorem test_call : runs { start with sp := 0x0C00, ppage := 0x02, pc := 0xC100 } [0x4A, 0x80, 0x00, 0x05]
    (fun t => t.sp == 0x0BFD && t.ppage == 0x05 && t.ccr == 0xD0 && t.pc == 0x8000 && reads t 0x0BFD [0x02, 0xC1,
      0x04]) = true := by decide

/-- R526, RTC. -/
theorem test_rtc : runs (holding { start with sp := 0x0BFD, ppage := 0x05 } 0x0BFD [0x02, 0xC1, 0x04]) [0x0A]
    (fun t => t.sp == 0x0C00 && t.ppage == 0x02 && t.ccr == 0xD0 && t.pc == 0xC104) = true := by decide

/-- R530, RTI. -/
theorem test_rti : runs (holding { start with sp := 0x0BF7 } 0x0BF7 [0xC0, 0x22, 0x11, 0x33, 0x44, 0x55, 0x66, 0x20,
    0x03]) [0x0B]
    (fun t => t.a == 0x11 && t.b == 0x22 && t.x == 0x3344 && t.y == 0x5566 && t.sp == 0x0C00 && t.ccr == 0xC0 && t.pc
      == 0x2003) = true := by decide

/-- R535, SWI. -/
theorem test_swi : runs (holding
    { start with sp := 0x0C00, ccr := 0x80, a := 0x11, b := 0x22, x := 0x3344, y := 0x5566, pc := 0x2000 } 0xFFF6
    [0xE0]) [0x3F]
    (fun t => t.sp == 0x0BF7 && t.ccr == 0x90 && t.pc == 0xE000 && reads t 0x0BF7 [0x80, 0x22, 0x11, 0x33, 0x44, 0x55,
      0x66, 0x20, 0x01]) = true := by decide

/-- R536, TRAP $30. -/
theorem test_trap : runs (holding
    { start with sp := 0x0C00, ccr := 0x80, a := 0x11, b := 0x22, x := 0x3344, y := 0x5566, pc := 0x2000 } 0xFFF8
    [0xE1]) [0x18, 0x30]
    (fun t => t.sp == 0x0BF7 && t.ccr == 0x90 && t.pc == 0xE100 && reads t 0x0BF7 [0x80, 0x22, 0x11, 0x33, 0x44, 0x55,
      0x66, 0x20, 0x02]) = true := by decide

/-- R577, PSHB. -/
theorem test_pshb : runs { start with b := 0xA5, sp := 0x0C00 } [0x37]
    (fun t => t.sp == 0x0BFF && t.ccr == 0xD0 && t.pc == 0xC001 && ramByte t 0x0BFF == 0xA5) = true := by decide

/-- R578, PSHC. -/
theorem test_pshc : runs { start with ccr := 0xD1, sp := 0x0C00 } [0x39]
    (fun t => t.sp == 0x0BFF && t.ccr == 0xD1 && t.pc == 0xC001 && ramByte t 0x0BFF == 0xD1) = true := by decide

/-- R579, PSHD. -/
theorem test_pshd : runs { start with sp := 0x0C00, a := 0x12, b := 0x34 } [0x3B]
    (fun t => t.sp == 0x0BFE && t.ccr == 0xD0 && t.pc == 0xC001 && reads t 0x0BFE [0x12, 0x34]) = true := by decide

/-- R580, PSHX. -/
theorem test_pshx : runs { start with x := 0xABCD, sp := 0x0C00 } [0x34]
    (fun t => t.sp == 0x0BFE && t.ccr == 0xD0 && t.pc == 0xC001 && reads t 0x0BFE [0xAB, 0xCD]) = true := by decide

/-- R581, PSHY. -/
theorem test_pshy : runs { start with y := 0x1357, sp := 0x0001 } [0x35]
    (fun t => t.sp == 0xFFFF && t.ccr == 0xD0 && t.pc == 0xC001 && ramByte t 0x0000 == 0x57 && ramByte t 0xFFFF ==
      0x13) = true := by decide

/-- R582, PULA. -/
theorem test_pula : runs (holding { start with sp := 0x0BFF, ccr := 0xDF } 0x0BFF [0x5A]) [0x32]
    (fun t => t.a == 0x5A && t.sp == 0x0C00 && t.ccr == 0xDF && t.pc == 0xC001) = true := by decide

/-- R583, PULB. -/
theorem test_pulb : runs (holding { start with sp := 0x0BFF } 0x0BFF [0xA5]) [0x33]
    (fun t => t.b == 0xA5 && t.sp == 0x0C00 && t.ccr == 0xD0 && t.pc == 0xC001) = true := by decide

/-- R584, PULC. -/
theorem test_pulc : runs (holding { start with sp := 0x0BFF, ccr := 0x90 } 0x0BFF [0xC5]) [0x38]
    (fun t => t.sp == 0x0C00 && t.ccr == 0x85 && t.pc == 0xC001) = true := by decide

/-- R585, PULD. -/
theorem test_puld : runs (holding { start with sp := 0x0BFE } 0x0BFE [0x12, 0x34]) [0x3A]
    (fun t => t.a == 0x12 && t.b == 0x34 && t.sp == 0x0C00 && t.ccr == 0xD0 && t.pc == 0xC001) = true := by decide

/-- R587, PULY. -/
theorem test_puly : runs (holding (holding { start with sp := 0xFFFF } 0x0000 [0x34]) 0xFFFF [0x12]) [0x31]
    (fun t => t.y == 0x1234 && t.sp == 0x0001 && t.ccr == 0xD0 && t.pc == 0xC001) = true := by decide

/-- R611, ANDCC #$AF. -/
theorem test_andcc : runs { start with ccr := 0xD5 } [0x10, 0xAF]
    (fun t => t.ccr == 0x85 && t.pc == 0xC002) = true := by decide

/-- R612, ORCC #$51. -/
theorem test_orcc : runs { start with ccr := 0x80 } [0x14, 0x51]
    (fun t => t.ccr == 0x91 && t.pc == 0xC002) = true := by decide

/-- R613, CLC. -/
theorem test_clc : runs { start with ccr := 0xD1 } [0x10, 0xFE]
    (fun t => t.ccr == 0xD0 && t.pc == 0xC002) = true := by decide

/-- R614, CLI. -/
theorem test_cli : runs start [0x10, 0xEF]
    (fun t => t.ccr == 0xC0 && t.pc == 0xC002) = true := by decide

/-- R615, CLV. -/
theorem test_clv : runs { start with ccr := 0xC2 } [0x10, 0xFD]
    (fun t => t.ccr == 0xC0 && t.pc == 0xC002) = true := by decide

/-- R616, SEC. -/
theorem test_sec : runs start [0x14, 0x01]
    (fun t => t.ccr == 0xD1 && t.pc == 0xC002) = true := by decide

/-- R617, SEI. -/
theorem test_sei : runs { start with ccr := 0xC0 } [0x14, 0x10]
    (fun t => t.ccr == 0xD0 && t.pc == 0xC002) = true := by decide

/-- R618, SEV. -/
theorem test_sev : runs { start with ccr := 0xC0 } [0x14, 0x02]
    (fun t => t.ccr == 0xC2 && t.pc == 0xC002) = true := by decide

/-- R620, NOP. -/
theorem test_nop : runs start [0xA7]
    (fun t => t.ccr == 0xD0 && t.pc == 0xC001) = true := by decide

/-- R625, STOP. -/
theorem test_stop : runs start [0x18, 0x3E]
    (fun t => t.ccr == 0xD0 && t.pc == 0xC002) = true := by decide

/-- R630, WAI. -/
theorem test_wai : runs
    { start with ccr := 0x80, a := 0x11, b := 0x22, x := 0x3344, y := 0x5566, sp := 0x0C00, pc := 0xC100 } [0x3E]
    (fun t => t.sp == 0x0BF7 && t.ccr == 0x80 && t.pc == 0xC101 && reads t 0x0BF7 [0x80, 0x22, 0x11, 0x33, 0x44, 0x55,
      0x66, 0xC1, 0x01]) = true := by decide

/-- CPX 2,+X: X is stepped before the access (30_encoding.md R122, R125), so it is compared with itself here. -/
theorem test_cpx_pre_modified : runs (holding { start with x := 0x0900 } 0x0902 [0x09, 0x02]) [0xAE, 0x21]
    (fun t => t.x == 0x0902 && t.ccr == 0xD4) = true := by decide

/-- R635, BGND. -/
theorem test_bgnd : runs start [0x00]
    (fun t => t.ccr == 0xD0 && t.pc == 0xC001) = true := by decide

/-! ## The machine around the instructions -/

/-- `86 55` placed at the PC by the host's means. -/
theorem test_withFetchWord_runs_the_instruction :
    (match step (State.reset.withFetchWord 16 0x5586) with
      | .next t => t.a == 0x55 && t.pc == 0x0002
      | .fault _ => false
      | .refused _ => false) = true := by decide

theorem test_decodeTableWord_reads_the_first_byte_lowest :
    decodeTableWord 16 0x0618 = some .aba ∧ decodeTableWord 8 0x06 = some (.jmp (.ext 0)) ∧
    decodeTableWord 32 0x34121218 = some (.emacs 0x1234) := by decide

/-- Bit 3 of the TFR and EXG postbyte and of the loop postbyte is ignored (R186, R130). -/
theorem test_ignored_postbyte_bits :
    decode [0xB7, 0x0D] = .ok (.tfr .a .x, []) ∧ decode [0x04, 0x3D, 0xFC] = .ok (.dbne .x 0x1FC, []) := by decide

theorem test_short_bytes_are_refused : decode [0x18] = .error .truncated ∧ decode [] = .error .truncated := by decide

/-- 60_exceptions.md R670: the handler's address comes from $FFF4, X and I are set. -/
theorem test_xirq_is_taken :
    runs (holding { start with ccr := 0x80, pins := ⟨true, []⟩ } 0xFFF4 [0xE2, 0x00]) [0xA7]
      (fun t => t.pc == 0xE200 && t.ccr == 0xD0 && t.sp == 0x0C37 && reads t 0x0C3E [0xC0, 0x00]) = true := by decide

/-- 70_reset_and_hazards.md R740: the instruction after CLI runs before the interrupt. -/
theorem test_cli_delays_the_interrupt :
    runs { start with pins := ⟨false, [0xFFF2]⟩ } [0x10, 0xEF] (fun t => t.iDelay && recognised t == none) = true := by
  decide

/-- 49_ccr_stop_misc.md R625: STOP with S = 0. -/
theorem test_stop_stacks_and_stops :
    runs { start with ccr := 0x50 } [0x18, 0x3E] (fun t => t.run == .stopped && t.sp == 0x0C37) = true := by decide

/-- 49_ccr_stop_misc.md R631: no second frame is stacked. -/
theorem test_wait_ends_without_a_second_frame :
    runs (holding { start with run := .waiting, ccr := 0xC0, pins := ⟨false, [0xFFF2]⟩ } 0xFFF2 [0xE3, 0x00]) []
      (fun t => t.run == .running && t.pc == 0xE300 && t.sp == 0x0C40 && t.ccr == 0xD0) = true := by decide

/-- 49_ccr_stop_misc.md R635: BGND with ENBDM = 1. -/
theorem test_bgnd_enters_bdm :
    runs { start with bdm := { start.bdm with status := 0x80 } } [0x00]
      (fun t => t.run == .bdmActive && t.tmp2 == 0xC001 && t.bdm.status == 0xC0 && t.bdm.ccr == 0xD0) = true := by decide

/-- 60_exceptions.md R706: WRITE_X, then the resume address is kept. -/
theorem test_write_x_command :
    runs { start with run := .bdmActive, schedule := [[.command 0x45 0x0000 0xBEEF]] } [0xA7]
      (fun t => t.x == 0xBEEF && t.run == .bdmActive && t.bdm.shift == 0xBEEF && t.bdm.status == 0x10) =
      true := by decide

/-- 20_memory.md R84: a store into the bytes after it is not run as code. -/
theorem test_store_into_the_queue_is_refused :
    runs { start with a := 0x3F } [0x7A, 0xC0, 0x04, 0xA7, 0xA7] (fun t => t.stale == [.cell 0xC004]) = true ∧
    (match step { holding start 0xC000 [0xA7] with stale := [.cell 0xC000] } with
      | .next _ => false
      | .fault _ => false
      | .refused r => r == .storeIntoPrefetchWindow) = true := by decide

/-- The same where the byte is a page register that stands among the next instruction's bytes: STAA $C004. -/
theorem test_store_into_a_queued_page_register_is_refused :
    let s := { start with a := 0x3F, cfg := { start.cfg with map := ⟨0xC004, 0xC004, .ppageReg, 0⟩ :: start.cfg.map } }
    runs s [0x7A, 0xC0, 0x04, 0xA7] (fun t => t.ppage == 0x3F && t.stale == [.ppage]) = true ∧
    (match step { s with pc := 0xC004, stale := [.ppage] } with
      | .next _ => false
      | .fault _ => false
      | .refused r => r == .storeIntoPrefetchWindow) = true := by decide

/-- 45_fuzzy_minmax_mac_tbl.md R414: REV stopped after two elements stands at its own address. -/
theorem test_rev_stops_at_its_address :
    runs (holding { start with a := 0xFF, x := 0x0900, y := 0x0800, schedule := [[.interruptAfter 2]] } 0x0900
        [0x01, 0x02, 0xFE, 0x02, 0xFF]) [0x18, 0x3A]
      (fun t => t.progress == .rev && t.pc == 0xC000 && t.x == 0x0902) = true := by decide

/-- 45_fuzzy_minmax_mac_tbl.md R412, D14: a consequent that is raised stands in the list that was read. -/
theorem test_rev_overlap_is_noticed :
    (match exec .rev (holding { start with a := 0xFF, ccr := 0xD2, x := 0x0900, y := 0x0900 } 0x0900 [0x00, 0xFF]) with
      | .next t => t.progress == .rev && ruleListOverlap t
      | .fault _ => false
      | .refused _ => false) = true := by decide

/-- The same where the list byte is a page register. -/
theorem test_rev_overlap_at_a_page_register :
    (match exec .rev { start with
        a := 0xFF, ccr := 0xD2, x := 0x0030, y := 0x0030
        cfg := { start.cfg with map := ⟨0x0030, 0x0030, .ppageReg, 0⟩ :: start.cfg.map } } with
      | .next t => t.progress == .rev && ruleListOverlap t && t.ppage == 0x3F
      | .fault _ => false
      | .refused _ => false) = true := by decide

/-- R414: a handler's own REV at the element of the execution it has interrupted starts afresh, and its record stays. -/
theorem test_a_handlers_own_rev_starts_afresh :
    let r : RuleRecord := ⟨0xC000, 0xFF, 0x0902, 0x0800, false, 0x0A00, [.cell 0x0800], [.cell 0x0900]⟩
    let s := enterRules { start with pc := 0xC002, a := 0xFF, x := 0x0902, y := 0x0800, sp := 0x09F7, suspended := [r] }
    s.outputs = [] ∧ s.consumed = [] ∧ s.suspended = [r] := by decide

/-- R414 with two executions interrupted at one element: the older is resumed first, and each finds its own record. -/
theorem test_records_outlive_a_return_out_of_order :
    let older : RuleRecord := ⟨0xC000, 0xFF, 0x0902, 0x0800, false, 0x0A00, [.cell 0x0800], [.cell 0x0900]⟩
    let newer : RuleRecord := ⟨0xC000, 0xFF, 0x0902, 0x0800, false, 0x0B00, [.cell 0x0810], [.cell 0x0900]⟩
    let s := enterRules
      { start with pc := 0xC002, a := 0xFF, x := 0x0902, y := 0x0800, sp := 0x0A00, suspended := [newer, older] }
    let t := enterRules { s with sp := 0x0B00 }
    s.outputs = [.cell 0x0800] ∧ s.suspended = [newer] ∧ t.outputs = [.cell 0x0810] ∧ t.suspended = [] := by decide

/-- 60_exceptions.md R719: a pin tag with ENTAG = 0 takes no other tag away. -/
theorem test_pin_tag_cancels_nothing :
    runs { start with schedule := [[.tag .bdm, .tag .pin]], bdm := { start.bdm with status := 0x80 } } [0xA7]
      (fun t => t.run == .bdmActive && t.tmp2 == 0xC000) = true := by decide

/-- 20_memory.md R72: a page register at $FF30 is seen over the BDM ROM, which is seen over RAM. -/
theorem test_bdm_map_precedence :
    let s := { start with cfg := { start.cfg with map := ⟨0xFF30, 0xFF30, .ppageReg, 0⟩ :: start.cfg.map } }
    locateInMap s 0xFF30 = .user .ppage ∧ locateInMap s 0xFF20 = .bdm 0xFF20 ∧ locateInMap s 0xFEFF = .user (.cell 0xFEFF true) := by
  decide

/-- INC $0900 with events in its step, the byte there being $10. -/
def incrementing (es : List Event) : State := holding { start with schedule := [es] } 0x0900 [0x10]

/-- 60_exceptions.md R705, 20_memory.md R70: WRITE_BYTE of $40 before the read, between read and write, after the
write. -/
theorem test_host_write_inside_inc :
    [(⟨0, 0⟩, 0x41), (⟨9, 0⟩, 0x11), (⟨14, 0⟩, 0x11), (⟨14, 1⟩, 0x40)].all (fun (p : Cut × Byte) =>
      runs (incrementing [.commandWithin p.1 ⟨0xC0, 0x0900, 0x4000⟩]) [0x72, 0x09, 0x00]
        (fun t => t.pc == 0xC003 && ramByte t 0x0900 == p.2 && t.earlier == none && t.stores == [])) = true := by decide

/-- READ_WORD before and after the write. -/
theorem test_host_read_inside_inc :
    [((⟨9, 0⟩ : Cut), (0x10 : Byte)), (⟨14, 1⟩, 0x11)].all (fun p =>
      runs (incrementing [.commandWithin p.1 ⟨0xE8, 0x0900, 0⟩]) [0x72, 0x09, 0x00]
        (fun t => hiByte t.bdm.shift == p.2 && ramByte t 0x0900 == 0x11)) = true := by decide

/-- R690, D18: a reset inside INC. -/
theorem test_reset_inside_inc :
    [(0, (0x10 : Byte)), (1, 0x11)].all (fun p =>
      runs (incrementing [.resetWithin p.1 .cop]) [0x72, 0x09, 0x00] (fun t => ramByte t 0x0900 == p.2)) = true := by decide

/-- 20_memory.md R68: SWI with a WRITE_WORD among its pushes; the return address is overwritten, Y is pushed after. -/
theorem test_host_write_among_pushes :
    runs { start with schedule := [[.commandWithin ⟨14, 1⟩ ⟨0xC8, 0x0C3E, 0xBEEF⟩]] } [0x3F]
      (fun t => reads t 0x0C3C [0x24, 0x68, 0xBE, 0xEF]) = true ∧
    runs { start with schedule := [[.commandWithin ⟨14, 1⟩ ⟨0xC8, 0x0C3C, 0xBEEF⟩]] } [0x3F]
      (fun t => reads t 0x0C3C [0x24, 0x68, 0xC0, 0x01]) = true := by decide

/-- 20_memory.md R84: the push of JSR into the bytes at its target, with a READ_WORD after it, is seen by the fetch
there, as without one; a push of SWI into the bytes of its handler too. -/
theorem test_push_into_the_target_is_seen :
    runs { start with schedule := [[.commandWithin ⟨14, 0⟩ ⟨0xE8, 0x0900, 0⟩]] } [0x16, 0x0C, 0x3C]
      (fun t => t.pc == 0x0C3C && t.stale == []) = true ∧
    runs (holding { start with schedule := [[.commandWithin ⟨14, 2⟩ ⟨0xC8, 0x0900, 0⟩]] } 0xFFF6 [0x0C, 0x38]) [0x3F]
      (fun t => t.pc == 0x0C38 && t.stale == []) = true ∧
    runs { start with schedule := [[.commandWithin ⟨14, 0⟩ ⟨0xC8, 0x0900, 0⟩]], x := 0xC004 } [0x6A, 0x00]
      (fun t => t.stale == [.cell 0xC004]) = true := by decide

/-- 49_ccr_stop_misc.md R635: a host write of $A7 over the BGND opcode before and after TMP2 is checked. -/
theorem test_host_write_over_bgnd :
    [((⟨13, 0⟩ : Cut), (0xC000 : Word)), (⟨14, 0⟩, 0xC001)].all (fun p =>
      runs { start with schedule := [[.commandWithin p.1 ⟨0xC0, 0xC000, 0xA700⟩]] } [0x00]
        (fun t => t.pc == p.2 && t.tmp2 == p.2 && ramByte t 0xC000 == 0xA7)) = true := by decide

/-- 45_fuzzy_minmax_mac_tbl.md R417: the same among the pushes of the sums of an interrupted WAV, the vector read
after. -/
theorem test_host_write_before_the_vector_of_wav :
    runs { start with progress := .wav, tmp1 := 0x1111, tmp2 := 0x2222, tmp3 := 0x3333, ccr := 0x80, pins := ⟨true, []⟩
                      schedule := [[.commandWithin ⟨0, 1⟩ ⟨0xC8, 0x0C3E, 0xBEEF⟩]] } []
      (fun t => reads t 0x0C3A [0x11, 0x11, 0x22, 0x22, 0xBE, 0xEF]) = true ∧
    runs { start with progress := .wav, ccr := 0x80, pins := ⟨true, []⟩
                      schedule := [[.commandWithin ⟨0, 3⟩ ⟨0xC8, 0xFFF4, 0xE500⟩]] } [] (fun t => t.pc == 0xE500) = true ∧
    runs { start with progress := .wav, ccr := 0x80, pins := ⟨true, []⟩
                      schedule := [[.commandWithin ⟨2, 3⟩ ⟨0xC8, 0xFFF4, 0xE500⟩]] } [] (fun t => t.pc == 0) = true := by
  decide

/-- 00_scope.md R5: RAM that is seen at two CPU addresses. -/
theorem test_mirrored_ram :
    let s := { start with cfg := { start.cfg with map := [⟨0x0000, 0x0FFF, .ram, 0⟩, ⟨0x1000, 0x1FFF, .ram, 0⟩] } }
    byteAt (write8 s 0x0123 0x77) 0x1123 = some 0x77 ∧ locate s 0x1FFF = .cell 0x0FFF true := by decide

/-- 92_eei_decisions.md D22: a run that ends at a named address. -/
theorem test_run_ends_at_an_address :
    (match run (reached 0xC002) 5 (placeBytes start 0xC000 [0xA7, 0xA7, 0xA7]) with
      | .next t => t.pc == 0xC002 && t.free == 2
      | .fault _ => false
      | .refused _ => false) = true := by decide

/-- 30_encoding.md R135. -/
theorem test_undefined_encoding_is_refused : exec (.undefined (.loop 0xC5)) start = .refused .undefinedEncoding := rfl

/-! ## States that meet the hypotheses of the statements, one theorem for each statement that has any -/

/-- Whether an answer is a next state with a property. -/
def nextIs (r : Res) (p : State → Bool) : Bool :=
  match r with
  | .next t => p t
  | .fault _ => false
  | .refused _ => false

theorem exists_of_nextIs {r : Res} {p : State → Bool} (h : nextIs r p = true) : ∃ t, r = .next t ∧ p t = true := by
  cases r with
  | next t => exact ⟨t, rfl, h⟩
  | fault r => cases r
  | refused r => simp [nextIs] at h

theorem allRam_of_standard {s : State} (h : s.cfg = Config.standard) (he : s.earlier = none) : AllRam s := by
  refine ⟨fun z => ?_, he⟩
  have h1 : (0 : Word) ≤ z := by bv_omega
  have h2 : z ≤ (0xFFFF : Word) := by bv_omega
  have e : regionAt Config.standard.map z = some ⟨0x0000, 0xFFFF, .ram, 0x0000⟩ := if_pos ⟨h1, h2⟩
  simp [locate, h, e, regionTarget, onChipKey]

/-- Where every address is RAM, none reaches a page register. -/
theorem not_isPageRegister {s : State} (h : AllRam s) (a : Word) : ¬ isPageRegister s a := by
  simp [isPageRegister, h.1 a]

theorem start_allRam : AllRam start := allRam_of_standard rfl rfl

theorem test_witness_DecodeOfEncodeIsTheCoreInstruction :
    (Instr.trap 0x30).wf = true ∧ (Instr.trap 0xFF).wf = true ∧ (Instr.undefined (.loop 0x02)).wf = true ∧
    (Instr.ldaa (.imm 0x12)).wf = true := by decide

theorem test_witness_DecodingIsTotalAndWellFormed :
    6 ≤ [(0xA7 : Byte), 0, 0, 0, 0, 0].length ∧ decode [0xA7, 0x00] = .ok (.nop, [0x00]) ∧
    (∀ tn ∈ [(0x30 : Byte), 0x39, 0x40, 0xFF], (0x30 ≤ tn.toNat ∧ tn.toNat ≤ 0x39) ∨ 0x40 ≤ tn.toNat) ∧
    decode [0x18, 0x39] = .ok (.trap 0x39, []) := ⟨by decide, by decide, by simp, by decide⟩

theorem test_witness_EveryStepKeepsTheInvariant : Inv start ∧ ∃ t, step start = .next t ∧ (t.pc == 0xC001) = true :=
  ⟨by unfold Inv; decide, exists_of_nextIs (p := fun t => t.pc == 0xC001) (by decide)⟩

theorem test_witness_EveryStepKeepsTheParameters : ∃ t, step start = .next t ∧ (t.pc == 0xC001) = true :=
  exists_of_nextIs (p := fun t => t.pc == 0xC001) (by decide)

/-- A reset that has arrived, in one operating mode. -/
def resetting (m : Mode) (es : List Event) : State := { start with schedule := [es], cfg := { start.cfg with mode := m } }

theorem test_witness_ResetIsTakenInEveryState :
    (∀ src ∈ [ResetSource.powerOn, .external, .clockMonitor, .cop], ∀ m ∈ [Mode.normal, .peripheral, .specialSingleChip],
      (resetting m [.reset src]).schedule = [.reset src] :: [] ∧ (resetting m [.reset src]).cfg.mode = m ∧
      (resetting m [.resetWithin 1 src]).schedule = [.resetWithin 1 src] :: []) ∧
    (resetting .normal [.reset .cop, .reset .external]).schedule = [.reset .cop, .reset .external] :: [] ∧
    (resetting .normal [.reset .cop, .reset .clockMonitor]).schedule = [.reset .cop, .reset .clockMonitor] :: [] := by
  decide

/-- A state about to run an instruction. -/
def before (code : List Byte) : State := placeBytes start start.pc code

theorem test_witness_StepRunsTheDecodedInstruction :
    ((before [0xA7]).schedule.headD [] = [] ∧ (before [0xA7]).run = .running ∧ (before [0xA7]).bdm.request = false ∧
      (before [0xA7]).progress = .none ∧ interruptHere (before [0xA7]) = none ∧ fetchInstr (before [0xA7]) = .ok (.nop, 1) ∧
      fetchStale (before [0xA7]) 1 = false ∧ (before [0xA7]).bdm.tracing = false) ∧
    (interruptHere (before [0x04, 0x02]) = none ∧ fetchStale (before [0x04, 0x02]) 2 = false ∧
      fetchInstr (before [0x04, 0x02]) = .ok (.undefined (.loop 0x02), 2)) ∧
    (fetchInstr { before [0xA7] with stale := [.cell 0xC000] } = .ok (.nop, 1) ∧
      fetchStale { before [0xA7] with stale := [.cell 0xC000] } 1 = true) ∧
    ∀ p ∈ [Progress.rev, .revw], ruleListOverlap { before [] with progress := p, outputs := [.cell 0x1357] } = true := by
  decide

theorem test_witness_NoInstructionSetsTheXMask : ∃ t, exec .nop start = .next t ∧ t.flagX = true := ⟨_, rfl, by decide⟩

/-- XIRQ asserted and unmasked. -/
def xirqNow : State := { start with ccr := 0x80, pins := ⟨true, []⟩ }

/-- A reset that arrives with X = 0. -/
def resetNow : State := { start with ccr := 0x80, schedule := [[.reset .external]] }

theorem test_witness_OnlyResetOrXirqSetsTheXMask :
    (xirqNow.flagX = false ∧ ∃ t, step xirqNow = .next t ∧ t.flagX = true) ∧
    (resetNow.flagX = false ∧ ∃ t, step resetNow = .next t ∧ t.flagX = true) := by
  refine ⟨⟨by decide, exists_of_nextIs (by decide)⟩, by decide, _, rfl, ?_⟩
  show (_ ||| (0xD0 : Byte)).getLsbD 6 = true
  simp

/-- Two maskable requests asserted, I = 0. -/
def twoRequests : State :=
  { start with ccr := 0xC0, pins := ⟨false, [0xFF00, 0xFFF2]⟩, cfg := { start.cfg with sources := [0xFF00] } }

/-- The lowest vector promoted. -/
def promotedConfig : Config := { Config.standard with sources := [0xFF00], promoted := some 0xFF00 }

/-- A real-time interrupt at $FFF0. -/
def rtiConfig : Config :=
  { Config.standard with sources := [0xFF00, 0xFF02, 0xFFF0], rtiVector := some 0xFFF0 }

theorem test_witness_RecognitionFollowsMasksAndPriority :
    (xirqNow.pins.xirq = true ∧ xirqNow.flagX = false) ∧ recognised twoRequests = some (0xFFF2, false) ∧
    (isMaskableVector twoRequests.cfg 0xFF00 && !isMaskableVector twoRequests.cfg 0xFF02) = true := by decide

theorem test_witness_priorities :
    (isMaskableVector promotedConfig 0xFF00 && isMaskableVector promotedConfig 0xFFF2 &&
      promotedConfig.promoted == some 0xFF00) = true ∧
    (isMaskableVector rtiConfig 0xFFF2 && isMaskableVector rtiConfig 0xFFF0 && isMaskableVector rtiConfig 0xFF02 &&
      isMaskableVector rtiConfig 0xFF00 && rtiConfig.promoted == none && rtiConfig.rtiVector == some 0xFFF0) = true := by
  decide

/-- XIRQ at an interrupt point of an instruction in progress. -/
def xirqIn (p : Progress) : State := { xirqNow with progress := p }

theorem test_witness_InterruptEntryStacksTheFrame :
    (∀ p ∈ [Progress.none, .rev, .revw, .wav], (xirqIn p).schedule.headD [] = [] ∧ (xirqIn p).run = .running ∧
      (xirqIn p).bdm.tracing = false ∧ (xirqIn p).bdm.request = false ∧ ruleListOverlap (xirqIn p) = false ∧
      recognised (xirqIn p) = some (0xFFF4, true)) ∧
    ∀ k < 6, ¬ isPageRegister (xirqIn .wav) ((xirqIn .wav).sp - 6 + BitVec.ofNat 16 k) :=
  ⟨by decide, fun _ _ => not_isPageRegister (allRam_of_standard rfl rfl) _⟩

theorem test_witness_ClearingTheIMaskDelaysMaskableInterrupts :
    (let s := before [0x10, 0xEF];
      s.schedule.headD [] = [] ∧ s.run = .running ∧ s.bdm.request = false ∧ s.bdm.tracing = false ∧ s.progress = .none ∧
      interruptHere s = none ∧ fetchInstr s = .ok (.andcc 0xEF, 2) ∧ fetchStale s 2 = false) ∧
    (∃ t, exec (.andcc 0xEF) { before [0x10, 0xEF] with schedule := [], pc := 0xC002 } = .next t ∧
      decide (t.progress = .none) = true) ∧
    ∃ u, step (before [0x10, 0xEF]) = .next u ∧ u.iDelay = true :=
  ⟨by decide, exists_of_nextIs (by decide), exists_of_nextIs (by decide)⟩

/-- Stopped, with a source of the device that ends a STOP asking. -/
def stoppedDevice : State :=
  { start with run := .stopped, ccr := 0xC0, pins := ⟨false, [0xFF00]⟩
               cfg := { start.cfg with sources := [0xFF00], stopWake := [0xFF00] } }

/-- 49_ccr_stop_misc.md R627 with such a source. -/
theorem test_stop_ends_by_a_source_of_the_device :
    runs (holding stoppedDevice 0xFF00 [0xE4, 0x00]) [] (fun t => t.run == .running && t.pc == 0xE400 && t.ccr == 0xD0) =
      true := by decide

theorem test_witness_SuspendedStatesEndAsTheTransitionTableSays :
    (let s := { start with run := .waiting };
      s.schedule.headD [] = [] ∧ s.bdm.tracing = false ∧ recognised s = none) ∧
    (let s := { xirqNow with run := .waiting };
      s.schedule.headD [] = [] ∧ s.bdm.tracing = false ∧ recognised s = some (0xFFF4, true)) ∧
    (let s := { start with run := .stopped, pins := ⟨true, []⟩ };
      s.pins.xirq = true ∧ s.flagX = true) ∧
    (let s := { xirqNow with run := .stopped };
      s.pins.xirq = true ∧ s.flagX = false) ∧
    (let s := { twoRequests with run := .stopped };
      s.pins.xirq = false ∧ s.flagI = false ∧ s.cfg.stopWake = [] ∧ 0xFFF2 ∈ s.pins.requests ∧
      isMaskableVector s.cfg 0xFFF2 = true) ∧
    (let s := stoppedDevice;
      s.pins.xirq = false ∧ s.flagI = false ∧ 0xFF00 ∈ s.cfg.stopWake ∧ isMaskableVector s.cfg 0xFF00 = true ∧
      s.pins.requests = [0xFF00]) ∧
    (let s := { start with run := .stopped, pins := ⟨false, [0xFFF2]⟩ };
      s.pins.xirq = false ∧ s.flagI = true) ∧
    (let s := { start with run := .stopped, ccr := 0xC0 };
      s.pins.xirq = false ∧ s.flagI = false ∧ s.pins.requests = []) ∧
    { start with run := .bdmActive }.schedule.headD [] = [] := by decide

theorem test_witness_MemoryReadsBackWhatIsStored :
    ¬ isPageRegister start 0xFFFF ∧ ¬ isPageRegister start (0xFFFF + 1) ∧ locate start 0xFFFF = .cell 0xFFFF true ∧
    slotAt start (0xFFFF + 1) ≠ slotAt start 0xFFFF ∧ start.earlier = none ∧ byteAt start 0xFFFF = some 0 ∧
    byteAt { start with cfg := { start.cfg with map := [] } } 0xFFFF = none :=
  ⟨not_isPageRegister start_allRam _, not_isPageRegister start_allRam _, by decide, by decide, rfl, by decide, by decide⟩

/-- A page register in the map. -/
def pageMapped : State := { start with cfg := { start.cfg with map := [⟨0x0030, 0x0030, .ppageReg, 0⟩] } }

theorem test_witness_page_register : locate pageMapped 0x0030 = .ppage := by decide

/-- A device with expanded memory: RAM at the bottom and FLASH over part of it, a page register inside the RAM, every
other address external, all windows on. -/
def expanded (v : Variant) (bits : Nat) : State :=
  { start with
    windows := ⟨true, true, true, true⟩
    cfg := { start.cfg with
      variant := v, ppageWidth := bits, dataWindows := true
      map := [⟨0x0900, 0x0AFF, .flash, 0x0900⟩, ⟨0x0800, 0x09FF, .ram, 0x0800⟩, ⟨0x0830, 0x0830, .ppageReg, 0⟩,
        ⟨0x0834, 0x0834, .dpageReg, 0⟩, ⟨0x0836, 0x0836, .epageReg, 0⟩]
      external := [⟨0, 0xFFFF, [.program, .data, .extra, .unpaged], 0, 0x3FFFFF, true, 0⟩] } }

theorem test_witness_MemoryMapFollowsPrecedenceAndWindows :
    let s := expanded .m68hc12 8
    let t := expanded .hcs12 6
    (regionAt s.cfg.map 0x0900).map Region.origin = some 0x0800 ∧ resourceAt s.cfg.map 0x0900 = some .ram ∧ resourceAt s.cfg.map 0x0AFF = some .flash ∧
    resourceAt s.cfg.map 0x7000 = none ∧ (externalBlockAt s 0x7000).map ExternalBlock.writable = some true ∧
    (hasDataWindows s.cfg && s.windows.pwen && s.windows.dwen && s.windows.ewen && s.windows.ewdir) = true ∧
    s.cfg.ppageBits = 8 ∧ (expanded .hcs12 8).cfg.ppageBits = 6 ∧ t.cfg.ppageBits = 6 ∧ t.windows.pwen = true ∧ t.cfg.variant = .hcs12 ∧
    locate s 0x0830 = .ppage ∧ locate s 0x0834 = .dpage ∧ locate s 0x0836 = .epage ∧
    ((∀ r ∈ s.cfg.map, ¬ (r.first ≤ 0x7000 ∧ (0x7000 : Word) ≤ r.last)) ∧ ∃ e ∈ s.cfg.external,
      pathOf s 0x7000 ∈ e.paths ∧ externalAddress s 0x7000 ≤ e.last) := by decide

/-- The boundaries of the windows, from the bit strings of R75 to R78 with PPAGE, DPAGE and EPAGE $5A. -/
theorem test_window_boundaries :
    (let s := { expanded .m68hc12 8 with ppage := 0x5A, dpage := 0x5A, epage := 0x5A };
      [0x03FF, 0x0400, 0x6FFF, 0x7000, 0x7FFF, 0x8000, 0xBFFF, 0xC000].map (fun n => externalAddress s (BitVec.ofNat 16 n)) =
        [0x3D6BFF, 0x3F0400, 0x3F6FFF, 0x35A000, 0x35AFFF, 0x168000, 0x16BFFF, 0x3FC000]) ∧
    (let s := { expanded .hcs12 6 with ppage := 0x1A };
      [0x0000, 0x3FFF, 0x4000, 0x7FFF, 0x8000, 0xBFFF, 0xC000, 0xFFFF].map
        (fun n => externalAddress s (BitVec.ofNat 16 n)) =
        [0xF4000, 0xF7FFF, 0xF8000, 0xFBFFF, 0x68000, 0x6BFFF, 0xFC000, 0xFFFFF]) := by decide

theorem test_witness_StoresWriteTheRegisterAtTheAddress :
    preModifies .x (.ix (.direct (.idx (.auto .x false 0)))) = true ∧
    preModifies .x (.ix (.direct (.idx (.auto .x true 0)))) = false ∧
    preModifies .x (.ix (.direct (.idx (.auto .y false 0)))) = false ∧ locate start 0x0800 = .cell 0x0800 true := by decide

theorem test_witness_TransfersTruncateAndSignExtend : TReg.ccr ≠ .tmp ∧ TReg.sp ≠ .tmp := by decide

theorem test_witness_ExchangesFollowTheRegisterTable :
    (TReg.x ≠ .tmp ∧ tregOverlap .x .a = false ∧ tregOverlap .x .d = false) ∧ TReg.b ∈ [TReg.a, .b] ∧
    TReg.sp ∈ [TReg.x, .y, .sp] ∧ TReg.d ∈ [TReg.d, .x, .y, .sp] := by decide

theorem test_witness_differences_exist : IsDiff (0x80 : Byte) 0x01 false 0x7F ∧ IsDiff (0x0000 : Word) 0x0001 false 0xFFFF := by
  unfold IsDiff wideDiff
  decide

theorem test_witness_ComparesSetTheFlagsOfTheDifference : IsDiff start.a 0x5B false 0xFF := by
  unfold IsDiff wideDiff
  decide

theorem test_witness_MinimumAndMaximum : IsDiff start.a 0x5A false 0x00 ∧ IsDiff start.d 0x5AC3 false 0x0000 := by
  unfold IsDiff wideDiff
  decide

theorem test_witness_LogicWorksBitByBit (a m : Byte) : ∃ r : Byte, ∀ k, r.getLsbD k = (a.getLsbD k && m.getLsbD k) :=
  ⟨a &&& m, fun _ => BitVec.getLsbD_and⟩

theorem test_witness_DecimalAdjustCorrectsBcdSums :
    (let s := { start with a := 0x00, ccr := 0xD0 };
      s.a.toNat = (0 + 0 + false.toNat) % 256 ∧ s.flagC = decide (256 ≤ 0 + 0 + false.toNat) ∧
      s.flagH = decide (16 ≤ 0 + 0 + false.toNat)) ∧
    (let s := { start with a := 0x33, ccr := 0xF1 };
      s.a.toNat = (0x99 + 0x99 + true.toNat) % 256 ∧ s.flagC = decide (256 ≤ 0x99 + 0x99 + true.toNat) ∧
      s.flagH = decide (16 ≤ 9 + 9 + true.toNat)) := by decide

theorem test_witness_UnsignedDivisions :
    (let s := { start with y := 0, a := 0xFF, b := 0xFF, x := 1 };
      s.x.toNat ≠ 0 ∧ (s.y.toNat * 65536 + s.a.toNat * 256 + s.b.toNat) / s.x.toNat ≤ 65535) ∧
    (let s := { start with y := 1, a := 0, b := 0, x := 1 };
      s.x.toNat ≠ 0 ∧ 65535 < (s.y.toNat * 65536 + s.a.toNat * 256 + s.b.toNat) / s.x.toNat) ∧
    (let s := { start with a := 0x12, b := 0x34, x := 0x1234 };
      s.x.toNat ≤ s.a.toNat * 256 + s.b.toNat) ∧
    (let s := { start with a := 0x12, b := 0x33, x := 0x1234 };
      s.a.toNat * 256 + s.b.toNat < s.x.toNat) ∧
    { start with x := 0 }.x.toNat = 0 := by decide

theorem test_witness_SignedDivisions :
    (let s := { start with y := 0, a := 0x7F, b := 0xFF, x := 1 };
      s.x.toInt ≠ 0 ∧ outOfRange 16 ((s.y.toInt * 65536 + s.d.toNat).tdiv s.x.toInt) = false) ∧
    (let s := { start with y := 0xFFFF, a := 0x80, b := 0x00, x := 1 };
      s.x.toInt ≠ 0 ∧ outOfRange 16 ((s.y.toInt * 65536 + s.d.toNat).tdiv s.x.toInt) = false) ∧
    (let s := { start with y := 0, a := 0x80, b := 0x00, x := 1 };
      s.x.toInt ≠ 0 ∧ outOfRange 16 ((s.y.toInt * 65536 + s.d.toNat).tdiv s.x.toInt) = true) ∧
    (let s := { start with a := 0x80, b := 0x01, x := 0xFFFF };
      s.x.toInt ≠ 0 ∧ outOfRange 16 (s.d.toInt.tdiv s.x.toInt) = false) ∧
    (let s := { start with a := 0x80, b := 0x00, x := 0xFFFF };
      s.x.toInt ≠ 0 ∧ outOfRange 16 (s.d.toInt.tdiv s.x.toInt) = true) ∧
    { start with x := 0 }.x.toInt = 0 := by decide

theorem test_witness_MemStoresTheGradeOfMembership :
    (let s := holding { start with a := 0x1F, x := 0x0900 } 0x0900 [0x20, 0x60, 0x05, 0x03];
      ¬ ((read8 s .operand s.x).toNat ≤ s.a.toNat)) ∧
    (let s := holding { start with a := 0x53, x := 0x0900 } 0x0900 [0x20, 0x60, 0x05, 0x03];
      (s.a.toNat - (read8 s .operand s.x).toNat) * (read8 s .second (s.x + 2)).toNat = 255) ∧
    (let s := holding { start with a := 0x60, x := 0x0900 } 0x0900 [0x20, 0x60, 0x04, 0x00];
      s.a.toNat ≤ (read8 s .operand (s.x + 1)).toNat ∧
      (s.a.toNat - (read8 s .operand s.x).toNat) * (read8 s .second (s.x + 2)).toNat = 256 ∧
      (read8 s .second (s.x + 3)).toNat = 0) ∧
    (let s := holding { start with a := 0x20, x := 0x0900 } 0x0900 [0x20, 0x53, 0x00, 0x05];
      (read8 s .second (s.x + 2)).toNat = 0 ∧ (read8 s .second (s.x + 3)).toNat ≠ 0 ∧
      ((read8 s .operand (s.x + 1)).toNat - s.a.toNat) * (read8 s .second (s.x + 3)).toNat = 255) := by decide

theorem test_witness_WavAndWavrSumProductsAndWeights : start.budget = none := rfl

theorem startsAfresh_of_nil {s : State} (h : s.suspended = []) : StartsAfresh s := by simp [StartsAfresh, h]

/-- A rule list at $0900 and fuzzy values at $0800. -/
def fuzzyStart : State :=
  holding (holding { start with a := 0xFF, x := 0x0900, y := 0x0800 } 0x0800 [0x40, 0x30]) 0x0900 [0x00, 0x01, 0xFE, 0x02, 0xFF]

theorem test_witness_RuleEvaluationChangesOnlyItsRegistersAndOutputs (a : Word) :
    ¬ isPageRegister fuzzyStart a ∧ (revByte fuzzyStart 0).toNat < 0xFE ∧ (revwWord fuzzyStart 0).toNat < 0xFFFE :=
  ⟨not_isPageRegister (allRam_of_standard (by decide) (by decide)) a, by decide, by decide⟩

theorem test_witness_RevEvaluatesARule :
    AllRam fuzzyStart ∧ StartsAfresh fuzzyStart ∧ fuzzyStart.budget = none ∧ fuzzyStart.flagV = false ∧ fuzzyStart.a = 0xFF ∧
    (∀ k ∈ [(0x00 : Byte), 0x01] ++ [0x02], k.toNat < 0xFE) ∧
    fuzzyStart.x = 0x0900 ∧ fuzzyStart.y = 0x0800 ∧ RamHolds fuzzyStart 0x0900 [0x00, 0x01, 0xFE, 0x02, 0xFF] ∧
    ∀ k < 5, ∀ c ∈ [(0x02 : Byte)], (0x0900 : Word) + BitVec.ofNat 16 k ≠ 0x0800 + BitVec.ofNat 16 c.toNat := by
  refine ⟨allRam_of_standard (by decide) (by decide), startsAfresh_of_nil (by decide), by decide, by decide, by decide, by simp,
    by decide, by decide, by unfold RamHolds; decide, fun k hk => ?_⟩
  interval_cases k <;> simp

/-- A weighted rule at $0900 (C = 1). -/
def weightedStart : State :=
  holding (holding { start with a := 0xFF, x := 0x0900, y := 0x0A00, ccr := 0xD1 } 0x0800 [0x40])
    0x0900 [0x08, 0x00, 0xFF, 0xFE, 0x08, 0x02, 0xFF, 0xFF]

theorem test_witness_RevwEvaluatesAWeightedRule :
    AllRam weightedStart ∧ StartsAfresh weightedStart ∧ weightedStart.budget = none ∧ weightedStart.flagV = false ∧ weightedStart.a = 0xFF ∧
    weightedStart.flagC = true ∧ weightedStart.x = 0x0900 ∧ (∀ k ∈ [(0x0800 : Word)] ++ [0x0802], k.toNat < 0xFFFE) ∧
    bytesOfWords ([0x0800] ++ [0xFFFE] ++ [0x0802] ++ [0xFFFF]) = [0x08, 0x00, 0xFF, 0xFE, 0x08, 0x02, 0xFF, 0xFF] ∧
    RamHolds weightedStart 0x0900 [0x08, 0x00, 0xFF, 0xFE, 0x08, 0x02, 0xFF, 0xFF] ∧
    ∀ k < 8, ∀ c ∈ [(0x0802 : Word)], (0x0900 : Word) + BitVec.ofNat 16 k ≠ c := by
  refine ⟨allRam_of_standard (by decide) (by decide), startsAfresh_of_nil (by decide), by decide, by decide, by decide, by decide,
    by decide, by simp, by decide, by unfold RamHolds; decide, fun k hk => ?_⟩
  interval_cases k <;> simp

theorem test_witness_StoppedRuleEvaluationResumesTransparently :
    (∃ t, exec .rev { fuzzyStart with budget := some 2 } = .next t ∧ decide (t.progress = .rev) = true) ∧
    (∃ u, exec .rev fuzzyStart = .next u ∧ decide (u.progress = .none) = true) ∧
    (∃ t, exec .revw { weightedStart with budget := some 2 } = .next t ∧ decide (t.progress = .revw) = true) ∧
    (∃ u, exec .revw weightedStart = .next u ∧ decide (u.progress = .none) = true) ∧
    (∃ t, exec .wav { fuzzyStart with b := 3, budget := some 1 } = .next t ∧ decide (t.progress = .wav) = true) :=
  ⟨exists_of_nextIs (by decide), exists_of_nextIs (by decide), exists_of_nextIs (by decide), exists_of_nextIs (by decide),
    exists_of_nextIs (by decide)⟩

/-- At the interrupt point before the last pass of an instruction, the bytes of an interrupt there below SP. -/
def lastPass (p : Progress) : State :=
  let s := holding { start with b := 0, x := 0x0900, y := 0x0800, progress := p } 0x0900 [0xFF, 0xFF]
  holding s (s.sp - BitVec.ofNat 16 (interruptedBytes s).length) (interruptedBytes s)

/-- The return of a handler of that interrupt, which has used A, B, X and Y. -/
def handled (p : Progress) : State :=
  let s := lastPass p
  { s with a := 0, b := 1, x := 2, y := 3, ccr := 0xD4, progress := .none, outputs := [.ppage], free := 7
           sp := s.sp - BitVec.ofNat 16 (interruptedBytes s).length
           suspended := [⟨s.pc, s.a, s.x, s.y, s.flagV, s.sp, s.outputs, s.consumed⟩] }

theorem test_witness_StoppedRuleEvaluationResumesTransparently_across_an_interrupt (p : Progress) (h : p ≠ .none) :
    AllRam (lastPass p) ∧ AllRam (handled p) ∧ (lastPass p).progress ≠ .none ∧ (lastPass p).budget = none ∧
    HandlerReturns (lastPass p) (handled p) ∧
    (∀ a, a ∉ frameAddresses 0x0C31 ++ frameAddresses 0x0C37 → ramByte (handled p) a = ramByte (lastPass p) a) ∧
    ∀ n, ∀ a ∈ passAddresses (afterPasses n (lastPass p)), a ∉ frameAddresses 0x0C31 ++ frameAddresses 0x0C37 := by
  have e : (lastPass p).cfg = Config.standard ∧ (lastPass p).earlier = none ∧ (handled p).cfg = Config.standard ∧
      (handled p).earlier = none := by cases p <;> decide
  have last : ∀ n, passAddresses (afterPasses (n + 1) (lastPass p)) = [] := fun n => by
    cases p with
    | none => exact absurd rfl h
    | rev => exact (congrArg passAddresses (ruleLoop_finished (by decide) (by decide) n)).trans (by decide)
    | revw => exact (congrArg passAddresses (ruleLoop_finished (by decide) (by decide) n)).trans (by decide)
    | wav => exact (congrArg passAddresses (wavLoop_finished (s := lastPass .wav) (by decide) n)).trans (by decide)
  have first : ∀ a ∈ passAddresses (lastPass p), a ∉ frameAddresses 0x0C31 ++ frameAddresses 0x0C37 := by
    cases p with
    | none => exact absurd rfl h
    | rev => rw [show passAddresses (lastPass .rev) = [0x0900, 0x08FF] by decide]; simp [frameAddresses]
    | revw => rw [show passAddresses (lastPass .revw) = [0x0900, 0x0901, 0x0800, 0xFFFF] by decide]; simp [frameAddresses]
    | wav => rw [show passAddresses (lastPass .wav) = [0x0900, 0x0800] by decide]; simp [frameAddresses]
  refine ⟨allRam_of_standard e.1 e.2.1, allRam_of_standard e.2.2.1 e.2.2.2, by cases p <;> first | exact absurd rfl h | decide,
    by cases p <;> decide, ?_, fun _ _ => rfl, fun n => ?_⟩
  · cases p <;> first | exact absurd rfl h | (unfold HandlerReturns RamHolds; decide)
  · cases n with
    | zero => cases p <;> exact first
    | succ n => simp [last n]

/-- 45_fuzzy_minmax_mac_tbl.md R416, R410: wavr with a budget of one pass, and with a host write between the reads of
its pass, makes one pass. -/
theorem test_wavr_makes_one_pass :
    (nextIs (exec .wavr { start with b := 3, budget := some 1 }) fun t => t.progress == .wav && t.b == 2 && t.x == 0x1358) =
      true ∧
    runs { start with b := 3, schedule := [[.commandWithin ⟨9, 0⟩ ⟨0xC0, 0x1358, 0x4000⟩]] } [0x3C]
      (fun t => t.progress == .wav && t.b == 2 && t.x == 0x1358) = true := by decide

theorem test_witness_EmacsAccumulatesTheSignedProduct :
    ∀ k < 4, ¬ isPageRegister start (0xFFFE + BitVec.ofNat 16 k) := fun _ _ => not_isPageRegister start_allRam _

theorem test_witness_TableInterpolation : start.cfg.variant = .hcs12 := rfl

theorem test_witness_BranchesFollowTheConditionTable (s : State) :
    ((true, .bra, .lbra) : Bool × (Byte → Instr) × (Word → Instr)) ∈
      [((true, .bra, .lbra) : Bool × (Byte → Instr) × (Word → Instr)), (s.flagC, .bcs, .lbcs)] := List.Mem.head _

theorem test_witness_BranchesAfterACompareDecideTheRelation :
    (src8 start (.imm 0x59)).toNat < start.a.toNat ∧ (src8 start (.imm 0x5A)).toNat ≤ start.a.toNat ∧
    start.a = src8 start (.imm 0x5A) ∧ start.a.toNat < (src8 start (.imm 0x80)).toNat ∧
    (src8 start (.imm 0x80)).toInt < start.a.toInt := by decide

theorem test_witness_BitConditionBranchesTestTheMaskedBits :
    let v := read8 (holding start 0x0040 [0x0F]) .operand (bitEa start (.dir 0x40))
    (∀ k, (0x0F : Byte).getLsbD k = true → v.getLsbD k = true) ∧ (∃ k, (0x10 : Byte).getLsbD k = true ∧ v.getLsbD k = false) ∧
    (∀ k, (0x00 : Byte).getLsbD k = true → v.getLsbD k = false) ∧
    (∃ k, (0x08 : Byte).getLsbD k = true ∧ v.getLsbD k = true) :=
  ⟨fun _ h => h, ⟨4, by decide⟩, fun k h => by simp at h, ⟨3, by decide⟩⟩

theorem test_witness_LoopPrimitivesCountAndBranch :
    (((-1, .dbeq, .dbne) : Int × (LoopReg → BitVec 9 → Instr) × (LoopReg → BitVec 9 → Instr)) ∈
      [((-1, .dbeq, .dbne) : Int × (LoopReg → BitVec 9 → Instr) × (LoopReg → BitVec 9 → Instr))]) ∧
    (BitVec.ofInt 8 (({ start with a := 1 }.a.toNat : Int) - 1)).toNat = 0 ∧
    (BitVec.ofInt 8 (({ start with a := 0 }.a.toNat : Int) - 1)).toNat ≠ 0 := ⟨List.Mem.head _, by decide, by decide⟩

theorem test_witness_CallAndRtcKeepThePage :
    (∀ k < 3, ¬ isPageRegister start (start.sp - 3 + BitVec.ofNat 16 k)) ∧ start.cfg.ppageBits = 6 :=
  ⟨fun _ _ => not_isPageRegister start_allRam _, rfl⟩

/-- No PPAGE register. -/
def unpaged : State := { start with cfg := { start.cfg with ppageWidth := 0 } }

theorem test_witness_no_page_register : unpaged.cfg.ppageBits = 0 := rfl

theorem test_witness_ExceptionsAreTakenAndReturnedFrom_undone :
    AllRam start ∧ (∃ t, exec .swi start = .next t ∧ ∃ u, exec .rti t = .next u) ∧
    ∃ t, exec (.trap 0x30) start = .next t ∧ ∃ u, exec .rti t = .next u :=
  ⟨allRam_of_standard (by decide) (by decide), ⟨_, rfl, _, rfl⟩, _, rfl, _, rfl⟩

theorem test_witness_PushesAndPullsMoveTheStackPointer :
    (start.a, Instr.psha) ∈ [(start.a, Instr.psha), (start.b, .pshb), (start.ccr, .pshc)] ∧
    (start.y, Instr.pshy) ∈ [(start.d, Instr.pshd), (start.x, .pshx), (start.y, .pshy)] := by decide

theorem test_witness_TranslatedMnemonicsRunAsTheirCore :
    (Instr.lslb, Instr.aslb) ∈ [(Instr.lsla, Instr.asla), (.lslb, .aslb), (.lsld, .asld)] := by decide

theorem test_witness_CcrInstructionsChangeTheirBits :
    (Instr.sei, 4, true) ∈ [(Instr.clc, 0, false), (.clv, 1, false), (.cli, 4, false), (.sec, 0, true), (.sev, 1, true),
      (.sei, 4, true)] := by decide

/-- ENBDM = 1. -/
def bdmOn : State := { start with bdm := { start.bdm with status := 0x80 } }

/-- S = 0. -/
def stopEnabled : State := { start with ccr := 0x50 }

/-- BDM active. -/
def inBdm : State := { bdmOn with run := .bdmActive }

/-- Stopped. -/
def stoppedNow : State := { start with run := .stopped }

theorem test_witness_NopStopWaiAndBgnd :
    (start.flagS && !stopEnabled.flagS && !start.bdm.status.getLsbD 7 && bdmOn.bdm.status.getLsbD 7) = true ∧
    start.earlier = none ∧ byteAt start (start.pc - 1) = some 0 := by decide

theorem test_witness_ExceptionsAreTakenAndReturnedFrom :
    (∀ a ∈ frameAddresses (start.sp - 9), ¬ isPageRegister start a) ∧
    ((frameAddresses (start.sp - 9)).map (slotAt start)).Nodup :=
  ⟨fun _ _ => not_isPageRegister start_allRam _, by decide⟩

theorem test_witness_BdmCommands :
    inBdm.run = .bdmActive ∧ stoppedNow.run = .stopped ∧ start.run = .running ∧
    (isFirmwareCommand 0x08 && isFirmwareCommand 0x67) = true ∧ (0x0800 : Word).toNat % 2 = 0 ∧
    (0x0801 : Word).toNat % 2 = 1 ∧ (inBdm.x + 2).toNat < 0xFEFF ∧ (0xFEFF : Word).toNat < 0xFF00 := by decide

/-- ENBDM = 1, with events in the next step. -/
def bdmEvents (es : List Event) : State := { bdmOn with schedule := [es] }

theorem test_witness_BdmCommands_at_a_boundary :
    (∀ es ∈ [[], [Event.forceBdm], [.tag .bdm], [.tag .pin], [.tag .swi]], (bdmEvents es).schedule = es :: [] ∧
      (bdmEvents es).run = .running ∧ (bdmEvents es).progress = .none ∧ (bdmEvents es).bdm.tracing = false ∧
      (bdmEvents es).bdm.request = false ∧ recognised (bdmEvents es) = none) ∧
    tagEnableBit (bdmEvents []) = false ∧
    (let s := { bdmEvents [.tag .pin] with bdm := { start.bdm with status := 0xA0 } }; tagEnableBit s = true) ∧
    (let s := { bdmEvents [] with bdm := { start.bdm with request := true } }; s.bdm.request = true) ∧
    (let t := { bdmOn with bdm := { bdmOn.bdm with tracing := true } };
      t.bdm.tracing = true ∧ t.progress = .none ∧ t.run = .running ∧ t.bdm.status.getLsbD 7 = true) := by decide

/-- Every kind of access inside INC $0900, at both sides of its read and of its store. -/
theorem test_witness_AccessesComeBetweenTwoAccessesOfAnInstruction :
    (∀ e ∈ [Event.commandWithin ⟨8, 0⟩ ⟨0xC0, 0x0900, 0x4000⟩, .commandWithin ⟨9, 0⟩ ⟨0xC0, 0x0900, 0x4000⟩,
        .commandWithin ⟨14, 1⟩ ⟨0xC0, 0x0900, 0x4000⟩, .commandWithin ⟨14, 0⟩ ⟨0xE0, 0x0900, 0⟩,
        .commandWithin ⟨14, 1⟩ ⟨0xE0, 0x0900, 0⟩, .resetWithin 0 .cop, .resetWithin 1 .cop],
      let s := holding (incrementing [e]) 0xC000 [0x72, 0x09, 0x00]
      s.schedule = [e] :: [] ∧ s.run = .running ∧ s.bdm.request = false ∧ s.bdm.tracing = false ∧ s.progress = .none ∧
      s.earlier = none ∧ interruptHere s = none ∧ fetchInstr s = .ok (.inc (.ext 0x0900), 3) ∧ fetchStale s 3 = false ∧
      locate s 0x0900 = .cell 0x0900 true) ∧
    (0x0900 : Word).toNat % 2 = 0 ∧ accessRank .operand = 8 := by decide

theorem test_witness_UndefinedEncodingsAreRefused :
    decode [0x0D, 0xE3, 0x01] = .ok (.undefined (.page1 0x0D 0xE3), [0x01]) ∧
    decode [0x18, 0x02, 0xE6, 0xE7] = .ok (.undefined (.second 0x02 0xE6 0xE7), []) := by decide

end Sys2Proof.Machine
end

section
/-! PROOF. The parameters of the machine (00_scope.md R5) are no part of what an operation writes: one lemma for each
operation of the model, in the order of the model's definitions, then the instructions, the boundary and the step. -/

namespace Sys2Proof.Machine

/-! ## What a frame already says -/

/-- A state that differs by stores has the same parameters. -/
theorem OnlyStores.cfg_eq {s t : State} (h : OnlyStores s t) : t.cfg = s.cfg := by
  rw [OnlyStores] at h
  rw [h]

/-- A state that differs in index registers has the same parameters. -/
theorem OnlyIndexes.cfg_eq {s t : State} (h : OnlyIndexes s t) : t.cfg = s.cfg := by
  rw [OnlyIndexes] at h
  rw [h]

@[simp] theorem noteRemap_cfg (s t : State) : (noteRemap s t).cfg = t.cfg := rfl

@[simp] theorem applyStores_cfg (s : State) (es : List Store) : (applyStores s es).cfg = s.cfg :=
  (onlyStores_applyStores s es).cfg_eq

/-! ## Stack, page register, exceptions and BDM entry -/

@[simp] theorem writePpage_cfg (s : State) (v : Byte) : (writePpage s v).cfg = s.cfg := by rw [writePpage_eq]
@[simp] theorem push8_cfg (s : State) (v : Byte) : (push8 s v).cfg = s.cfg := (onlyStores_push8 s v).cfg_eq
@[simp] theorem push16_cfg (s : State) (v : Word) : (push16 s v).cfg = s.cfg := (onlyStores_push16 s v).cfg_eq
@[simp] theorem pushFrame_cfg (s : State) (rtn : Word) : (pushFrame s rtn).cfg = s.cfg :=
  (onlyStores_pushFrame s rtn).cfg_eq

@[simp] theorem takeException_cfg (s : State) (vector rtn : Word) (isXirq : Bool) :
    (takeException s vector rtn isXirq).cfg = s.cfg := by
  rw [takeException_eq]
  simp

@[simp] theorem enterHandler_cfg (s : State) (vector : Word) (isXirq : Bool) :
    (enterHandler s vector isXirq).cfg = s.cfg := by
  rw [enterHandler_eq]
  simp

@[simp] theorem returnFromException_cfg (s : State) : (returnFromException s).cfg = s.cfg := rfl

@[simp] theorem enterBdm_cfg (s : State) (tmp2 : Word) : (enterBdm s tmp2).cfg = s.cfg := by
  cases h : bdmEnabled s with
  | true => rw [enterBdm_enabled h]
  | false => rw [enterBdm_disabled h]

/-! ## Operands -/

@[simp] theorem idxUpdate_cfg (s : State) (m : Idx) : (idxUpdate s m).cfg = s.cfg := (onlyIndexes_idxUpdate s m).cfg_eq
@[simp] theorem idxXUpdate_cfg (s : State) (m : IdxX) : (idxXUpdate s m).cfg = s.cfg :=
  (onlyIndexes_idxXUpdate s m).cfg_eq
@[simp] theorem idxIUpdate_cfg (s : State) (m : IdxI) : (idxIUpdate s m).cfg = s.cfg :=
  (onlyIndexes_idxIUpdate s m).cfg_eq
@[simp] theorem src8Update_cfg (s : State) (o : Src8) : (src8Update s o).cfg = s.cfg :=
  (onlyIndexes_src8Update s o).cfg_eq
@[simp] theorem src16Update_cfg (s : State) (o : Src16) : (src16Update s o).cfg = s.cfg :=
  (onlyIndexes_src16Update s o).cfg_eq
@[simp] theorem mem3Update_cfg (s : State) (m : Mem3) : (mem3Update s m).cfg = s.cfg :=
  (onlyIndexes_mem3Update s m).cfg_eq
@[simp] theorem mem2Update_cfg (s : State) (m : Mem2) : (mem2Update s m).cfg = s.cfg :=
  (onlyIndexes_mem2Update s m).cfg_eq
@[simp] theorem bitUpdate_cfg (s : State) (m : BitEa) : (bitUpdate s m).cfg = s.cfg :=
  (onlyIndexes_bitUpdate s m).cfg_eq
@[simp] theorem callUpdate_cfg (s : State) (dest : CallDest) : (callUpdate s dest).cfg = s.cfg :=
  (onlyIndexes_callUpdate s dest).cfg_eq
@[simp] theorem moveSource8Update_cfg (s : State) (m : MovSrc8) : (moveSource8Update s m).cfg = s.cfg :=
  (onlyIndexes_moveSource8Update s m).cfg_eq
@[simp] theorem moveSource16Update_cfg (s : State) (m : MovSrc16) : (moveSource16Update s m).cfg = s.cfg :=
  (onlyIndexes_moveSource16Update s m).cfg_eq
@[simp] theorem moveDestUpdate_cfg (s : State) (m : MovDst) : (moveDestUpdate s m).cfg = s.cfg :=
  (onlyIndexes_moveDestUpdate s m).cfg_eq

/-! ## Arithmetic, logic, shifts: registers and flags -/

@[simp] theorem addToA_cfg (m : Byte) (cin : Bool) (s : State) : (addToA m cin s).cfg = s.cfg := rfl
@[simp] theorem addToB_cfg (m : Byte) (cin : Bool) (s : State) : (addToB m cin s).cfg = s.cfg := rfl
@[simp] theorem subFromA_cfg (m : Byte) (bin : Bool) (s : State) : (subFromA m bin s).cfg = s.cfg := rfl
@[simp] theorem subFromB_cfg (m : Byte) (bin : Bool) (s : State) : (subFromB m bin s).cfg = s.cfg := rfl
@[simp] theorem compare_cfg {w : Nat} (r m : BitVec w) (s : State) : (compare r m s).cfg = s.cfg := rfl
@[simp] theorem State.stepFlags_cfg (s : State) (r : Byte) (v : Bool) : (s.stepFlags r v).cfg = s.cfg := rfl
@[simp] theorem State.zeroFlag_cfg (s : State) (r : Word) : (s.zeroFlag r).cfg = s.cfg := rfl
@[simp] theorem daaResult_cfg (s : State) (r : Byte) (c : Bool) : (daaResult s r c).cfg = s.cfg := rfl
@[simp] theorem andCcr_cfg (mask : Byte) (s : State) : (andCcr mask s).cfg = s.cfg := rfl
@[simp] theorem orCcr_cfg (mask : Byte) (s : State) : (orCcr mask s).cfg = s.cfg := rfl
@[simp] theorem modifyA_cfg (f : Byte → Alu 8) (s : State) : (modifyA f s).cfg = s.cfg := rfl
@[simp] theorem modifyB_cfg (f : Byte → Alu 8) (s : State) : (modifyB f s).cfg = s.cfg := rfl
@[simp] theorem modifyD_cfg (f : Word → Alu 16) (s : State) : (modifyD f s).cfg = s.cfg := rfl
@[simp] theorem emacsFlags_cfg (s : State) (m i r : BitVec 32) : (emacsFlags s m i r).cfg = s.cfg := rfl
@[simp] theorem setYD_cfg (s : State) (v : BitVec 32) : (setYD s v).cfg = s.cfg := rfl
@[simp] theorem productFlags_cfg (s : State) (p : BitVec 32) : (productFlags s p).cfg = s.cfg := rfl
@[simp] theorem divideByZero_cfg (s : State) : (divideByZero s).cfg = s.cfg := rfl
@[simp] theorem overflowFlags_cfg (s : State) : (overflowFlags s).cfg = s.cfg := rfl
@[simp] theorem quotientFlags_cfg (s : State) (q : Word) : (quotientFlags s q).cfg = s.cfg := rfl
@[simp] theorem fractionFlags_cfg (s : State) (z v c : Bool) : (fractionFlags s z v c).cfg = s.cfg := rfl

/-! ## Stores of the instructions -/

@[simp] theorem storeByte_cfg (v : Byte) (m : Mem3) (s : State) : (storeByte v m s).cfg = s.cfg := by simp [storeByte]
@[simp] theorem storeWord_cfg (v : Word) (m : Mem3) (s : State) : (storeWord v m s).cfg = s.cfg := by simp [storeWord]
@[simp] theorem modifyByte_cfg (f : Byte → Alu 8) (m : Mem2) (s : State) : (modifyByte f m s).cfg = s.cfg := by
  simp [modifyByte]
@[simp] theorem modifyBits_cfg (f : Byte → Byte) (m : BitEa) (s : State) : (modifyBits f m s).cfg = s.cfg := by
  simp [modifyBits]

/-! ## Branches and transfers -/

@[simp] theorem branchIf_cfg (cond : Bool) (offset : Word) (s : State) : (branchIf cond offset s).cfg = s.cfg := by
  cases cond <;> rfl
@[simp] theorem incCounter_cfg (s : State) (r : LoopReg) : (incCounter s r).cfg = s.cfg := by cases r <;> rfl
@[simp] theorem decCounter_cfg (s : State) (r : LoopReg) : (decCounter s r).cfg = s.cfg := by cases r <;> rfl
@[simp] theorem branchIfZero_cfg (r : LoopReg) (rel : BitVec 9) (s : State) : (branchIfZero r rel s).cfg = s.cfg :=
  branchIf_cfg _ _ s
@[simp] theorem branchIfNonzero_cfg (r : LoopReg) (rel : BitVec 9) (s : State) :
    (branchIfNonzero r rel s).cfg = s.cfg := branchIf_cfg _ _ s

@[simp] theorem setTreg8_cfg (s : State) (v : Byte) (r : TReg) : (setTreg8 s v r).cfg = s.cfg := by cases r <;> rfl
@[simp] theorem setTreg16_cfg (s : State) (v : Word) (first : Bool) (r : TReg) :
    (setTreg16 s v first r).cfg = s.cfg := by
  cases r with
  | tmp => cases first <;> rfl
  | _ => rfl

@[simp] theorem transfer_cfg (src dst : TReg) (s : State) : (transfer src dst s).cfg = s.cfg := by
  unfold transfer
  split <;> simp

@[simp] theorem exchange_cfg (r1 r2 : TReg) (s : State) : (exchange r1 r2 s).cfg = s.cfg := by
  simp only [exchange]
  split
  · simp
  · simp
  · split <;> simp
  · split <;> simp

/-! ## REV, REVW and WAV: each pass, then any number of passes -/

@[simp] theorem nextDraw_cfg (s : State) : (nextDraw s).cfg = s.cfg := rfl
@[simp] theorem finished_cfg (s : State) : (finished s).cfg = s.cfg := rfl
@[simp] theorem consume_cfg (s : State) (bytes : List Word) : (consume s bytes).cfg = s.cfg := rfl
@[simp] theorem toggleV_cfg (s : State) : (toggleV s).cfg = s.cfg := rfl

@[simp] theorem antecedent_cfg (s : State) (m : Byte) : (antecedent s m).cfg = s.cfg := by
  unfold antecedent
  split <;> simp

@[simp] theorem consequent_cfg (s : State) (addr : Word) (m : Byte) : (consequent s addr m).cfg = s.cfg := by
  unfold consequent
  split <;> simp

@[simp] theorem revPass_cfg (s : State) : (revPass s).cfg = s.cfg := by
  simp only [revPass]
  repeat' split
  all_goals simp

@[simp] theorem revwPass_cfg (s : State) : (revwPass s).cfg = s.cfg := by
  simp only [revwPass]
  repeat' split
  all_goals simp

theorem ruleLoop_cfg {pass : State → State} (h : ∀ s, (pass s).cfg = s.cfg) (n : Nat) (s : State) :
    (ruleLoop pass n s).cfg = s.cfg := by
  induction n generalizing s with
  | zero => rfl
  | succ n ih =>
    simp only [ruleLoop]
    split
    · rfl
    · split
      · exact h s
      · exact (ih (pass s)).trans (h s)

@[simp] theorem endRev_cfg (s : State) : (endRev s).cfg = s.cfg := by
  simp only [endRev]
  split <;> rfl

@[simp] theorem endRevw_cfg (s : State) : (endRevw s).cfg = s.cfg := by
  simp only [endRevw]
  split <;> rfl

@[simp] theorem runRev_cfg (s : State) : (runRev s).cfg = s.cfg :=
  (endRev_cfg _).trans (ruleLoop_cfg revPass_cfg _ s)

@[simp] theorem runRevw_cfg (s : State) : (runRevw s).cfg = s.cfg :=
  (endRevw_cfg _).trans (ruleLoop_cfg revwPass_cfg _ s)

@[simp] theorem enterRules_cfg (s : State) : (enterRules s).cfg = s.cfg := by rw [enterRules_eq]

@[simp] theorem suspendRules_cfg (s : State) : (suspendRules s).cfg = s.cfg := by
  unfold suspendRules
  split <;> rfl

@[simp] theorem wavPass_cfg (s : State) : (wavPass s).cfg = s.cfg := by
  simp only [wavPass]
  split <;> rfl

@[simp] theorem wavLoop_cfg (n : Nat) (s : State) : (wavLoop n s).cfg = s.cfg := by
  induction n generalizing s with
  | zero => rfl
  | succ n ih =>
    simp only [wavLoop]
    split
    · exact wavPass_cfg s
    · exact (ih (wavPass s)).trans (wavPass_cfg s)

@[simp] theorem endWav_cfg (s : State) : (endWav s).cfg = s.cfg := by
  unfold endWav
  split <;> rfl

@[simp] theorem runWav_cfg (s : State) : (runWav s).cfg = s.cfg := (endWav_cfg _).trans (wavLoop_cfg _ s)

/-! ## The instructions -/

/-- Every next state that an answer gives has the parameters `c`. -/
def KeepsParameters (c : Config) (r : Res) : Prop := ∀ t, r = .next t → t.cfg = c

theorem keepsParameters_next {c : Config} {t : State} (h : t.cfg = c) : KeepsParameters c (.next t) := by
  rintro _ ⟨⟩
  exact h

theorem keepsParameters_refused (c : Config) (r : Refusal) : KeepsParameters c (.refused r) := by
  intro t h
  cases h

/-- A change that keeps the parameters may follow. -/
theorem KeepsParameters.mapNext {c : Config} {r : Res} {f : State → State} (hf : ∀ t, (f t).cfg = t.cfg)
    (h : KeepsParameters c r) : KeepsParameters c (mapNext f r) := by
  intro t ht
  obtain ⟨u, hu, rfl⟩ := mapNext_next.1 ht
  exact (hf u).trans (h u hu)

theorem execDaa_keepsParameters (s : State) : KeepsParameters s.cfg (execDaa s) := by
  unfold execDaa
  split <;> exact keepsParameters_next (daaResult_cfg s _ _)

theorem execEdiv_keepsParameters (s : State) : KeepsParameters s.cfg (execEdiv s) := by
  simp only [execEdiv]
  repeat' split
  all_goals exact keepsParameters_next (by simp)

theorem execEdivs_keepsParameters (s : State) : KeepsParameters s.cfg (execEdivs s) := by
  simp only [execEdivs]
  repeat' split
  all_goals exact keepsParameters_next (by simp)

theorem execFdiv_keepsParameters (s : State) : KeepsParameters s.cfg (execFdiv s) := by
  simp only [execFdiv]
  split <;> exact keepsParameters_next (by simp)

theorem execIdiv_keepsParameters (s : State) : KeepsParameters s.cfg (execIdiv s) := by
  simp only [execIdiv]
  split <;> exact keepsParameters_next (by simp)

theorem execIdivs_keepsParameters (s : State) : KeepsParameters s.cfg (execIdivs s) := by
  simp only [execIdivs]
  repeat' split
  all_goals exact keepsParameters_next (by simp)

theorem execStop_keepsParameters (s : State) : KeepsParameters s.cfg (execStop s) := by
  unfold execStop
  split
  · exact keepsParameters_next rfl
  · exact keepsParameters_next (pushFrame_cfg s s.pc)

/-- No instruction changes the parameters. Beside those whose answer has several cases, every instruction answers one
next state, built of the operations above. -/
theorem exec_keepsParameters (i : Instr) (s : State) : KeepsParameters s.cfg (exec i s) := by
  cases i with
  | daa => exact execDaa_keepsParameters s
  | ediv => exact execEdiv_keepsParameters s
  | edivs => exact execEdivs_keepsParameters s
  | fdiv => exact execFdiv_keepsParameters s
  | idiv => exact execIdiv_keepsParameters s
  | idivs => exact execIdivs_keepsParameters s
  | stop => exact execStop_keepsParameters s
  | undefined e => exact keepsParameters_refused _ _
  | _ =>
    refine keepsParameters_next ?_
    simp

/-! ## BDM commands -/

@[simp] theorem writeMapTarget_cfg (s : State) (g : MapTarget) (v : Byte) : (writeMapTarget s g v).cfg = s.cfg :=
  (writeMapTarget_eq s g v).cfg_eq
@[simp] theorem write8InMap_cfg (s : State) (a : Word) (v : Byte) : (write8InMap s a v).cfg = s.cfg :=
  writeMapTarget_cfg s _ v
@[simp] theorem write16InMap_cfg (s : State) (a v : Word) : (write16InMap s a v).cfg = s.cfg := by
  simp [write16InMap]
@[simp] theorem bdmLatch_cfg (s : State) (op : Byte) (addr : Word) : (bdmLatch s op addr).cfg = s.cfg := rfl
@[simp] theorem byteOut_cfg (s : State) (addr : Word) (v : Byte) : (byteOut s addr v).cfg = s.cfg := rfl
@[simp] theorem leaveBdm_cfg (s : State) : (leaveBdm s).cfg = s.cfg := rfl
@[simp] theorem startTrace_cfg (s : State) : (startTrace s).cfg = s.cfg := rfl
@[simp] theorem enableTagging_cfg (s : State) : (enableTagging s).cfg = s.cfg := rfl
@[simp] theorem readNext_cfg (s : State) : (readNext s).cfg = s.cfg := rfl
@[simp] theorem writeNext_cfg (s : State) (data : Word) : (writeNext s data).cfg = s.cfg := by simp [writeNext]

@[simp] theorem requestBdm_cfg (s : State) : (requestBdm s).cfg = s.cfg := by
  unfold requestBdm
  split <;> rfl

/-- Every state that a command leaves has the parameters `c`. -/
def LeavesParameters (c : Config) (r : Except Refusal State) : Prop := ∀ t, r = .ok t → t.cfg = c

theorem leavesParameters_ok {c : Config} {t : State} (h : t.cfg = c) : LeavesParameters c (.ok t) := by
  rintro _ ⟨⟩
  exact h

theorem leavesParameters_error (c : Config) (r : Refusal) : LeavesParameters c (.error r) := by
  intro t h
  cases h

/-- A command that is chosen by its opcode. -/
theorem LeavesParameters.ite {c : Config} {p : Prop} [Decidable p] {r q : Except Refusal State}
    (hr : LeavesParameters c r) (hq : LeavesParameters c q) : LeavesParameters c (if p then r else q) := by
  split
  · exact hr
  · exact hq

theorem ifAligned_leavesParameters {c : Config} (addr : Word) {s : State} (h : s.cfg = c) :
    LeavesParameters c (ifAligned addr s) := (leavesParameters_error c _).ite (leavesParameters_ok h)

theorem firmwareCommand_leavesParameters (s : State) (op : Byte) (data : Word) :
    LeavesParameters s.cfg (firmwareCommand s op data) := by
  unfold firmwareCommand
  repeat' with_reducible apply LeavesParameters.ite
  -- The fifteen opcodes of Table 8-2 come first; what is left is refused.
  on_goal 16 => exact leavesParameters_error _ _
  all_goals exact leavesParameters_ok (by simp)

theorem runCommand_leavesParameters (s : State) (op : Byte) (addr data : Word) :
    LeavesParameters s.cfg (runCommand s op addr data) := by
  have hardware {t : State} (h : t.cfg = s.cfg) : LeavesParameters s.cfg (.ok t) := leavesParameters_ok h
  have aligned {t : State} (h : t.cfg = s.cfg) : LeavesParameters s.cfg (ifAligned addr t) :=
    ifAligned_leavesParameters addr h
  have firmware := firmwareCommand_leavesParameters { s with bdm := { s.bdm with instr := op } } op data
  have refused (r : Refusal) := leavesParameters_error s.cfg r
  exact .ite (hardware (by simp)) <| .ite (hardware (by simp)) <| .ite (hardware (by simp)) <|
    .ite (aligned (by simp)) <| .ite (aligned (by simp)) <|
    .ite (hardware (by simp)) <| .ite (hardware (by simp)) <|
    .ite (aligned (by simp)) <| .ite (aligned (by simp)) <|
    .ite (firmware.ite (refused _)) (refused _)

theorem bdmCommand_leavesParameters (s : State) (op : Byte) (addr data : Word) :
    LeavesParameters s.cfg (bdmCommand s op addr data) :=
  (leavesParameters_ok rfl).ite (runCommand_leavesParameters (beginCommand s) op addr data)

theorem commandAmong_cfg {s t u : State} {b : Bool} {c : Command} {n : Nat} (h : commandAmong s t b c n = .ok u) :
    u.cfg = t.cfg := (commandAmong_eq h).1.cfg_eq

theorem commandWithin_keepsParameters {f : State → Res} (hf : ∀ s, KeepsParameters s.cfg (f s)) (s : State)
    (c : Command) (reads n : Nat) : KeepsParameters s.cfg (commandWithin f s c reads n) := by
  intro u h
  obtain ⟨q, t, hq, hu⟩ := commandWithin_next h
  have hq : q.cfg = s.cfg := bdmCommand_leavesParameters s _ _ _ q hq
  rcases hu with ⟨ht, rfl⟩ | ⟨ht, hu⟩
  · exact (hf _ t ht).trans hq
  · exact (commandAmong_cfg hu).trans ((hf _ t ht).trans hq)

/-! ## Reset, events and waking -/

@[simp] theorem takeReset_cfg (s : State) (src : ResetSource) : (takeReset s src).cfg = s.cfg := by
  simp only [takeReset]
  split <;> simp

theorem arriveEvent_cfg {x y : Arrived} {e : Event} (h : arriveEvent x e = .ok y) : y.state.cfg = x.state.cfg := by
  cases e with
  | command op addr data =>
    cases ht : bdmCommand x.state op addr data with
    | error r => simp [arriveEvent, ht, Except.map] at h
    | ok t =>
      obtain rfl : { x with state := nextDraw t } = y := by simpa [arriveEvent, ht, Except.map] using h
      exact bdmCommand_leavesParameters x.state op addr data t ht
  | forceBdm =>
    cases h
    dsimp only
    split <;> simp
  | hostTimeout =>
    cases h
    dsimp only
    split <;> rfl
  | _ =>
    cases h
    rfl

theorem arriveEvents_cfg {es : List Event} {x y : Arrived} (h : arriveEvents es x = .ok y) :
    y.state.cfg = x.state.cfg := by
  induction es generalizing x with
  | nil =>
    cases h
    rfl
  | cons e es ih =>
    unfold arriveEvents at h
    split at h
    · exact (ih h).trans (arriveEvent_cfg ‹_›)
    · cases h

theorem arrivals_cfg {s : State} {x : Arrived} (h : arrivals s = .ok x) : x.state.cfg = s.cfg := arriveEvents_cfg h

@[simp] theorem leaveInstruction_cfg (s : State) : (leaveInstruction s).cfg = s.cfg := by
  unfold leaveInstruction
  split <;> simp

@[simp] theorem takeInterrupt_cfg (s : State) (vector : Word) (isXirq : Bool) :
    (takeInterrupt s vector isXirq).cfg = s.cfg := takeException_cfg s vector s.pc isXirq

@[simp] theorem wakeWaiting_cfg (s : State) : (wakeWaiting s).cfg = s.cfg := by
  unfold wakeWaiting
  split <;> simp

@[simp] theorem wakeStopped_cfg (s : State) : (wakeStopped s).cfg = s.cfg := by
  unfold wakeStopped
  repeat' split
  all_goals simp

/-! ## The boundary -/

@[simp] theorem noteIDelay_cfg (iWas rti : Bool) (s : State) : (noteIDelay iWas rti s).cfg = s.cfg := by
  unfold noteIDelay
  split <;> rfl

@[simp] theorem endTrace_cfg (s : State) : (endTrace s).cfg = s.cfg := by
  simp only [endTrace]
  repeat' split
  all_goals simp

@[simp] theorem retire_cfg (iWas rti : Bool) (s : State) : (retire iWas rti s).cfg = s.cfg := by simp [retire]

@[simp] theorem resume_cfg (s : State) : (resume s).cfg = s.cfg := by
  unfold resume
  split <;> simp

@[simp] theorem enterBdmHere_cfg (s : State) : (enterBdmHere s).cfg = s.cfg := enterBdm_cfg s _

@[simp] theorem runTagged_cfg (s : State) (k : TagKind) : (runTagged s k).cfg = s.cfg := by
  cases k with
  | swi => exact takeException_cfg s _ _ _
  | bdm | pin => exact enterBdmHere_cfg s

@[simp] theorem prepare_cfg (s : State) (a : Action) : (prepare s a).cfg = s.cfg := by
  cases a with
  | interrupt v isXirq => exact leaveInstruction_cfg s
  | _ => rfl

@[simp] theorem finish_cfg (s : State) (a : Action) (t : State) : (finish s a t).cfg = t.cfg := by
  unfold finish
  split <;> simp

theorem act_keepsParameters (s : State) (a : Action) : KeepsParameters s.cfg (act s a) := by
  cases a with
  | instr i n => exact exec_keepsParameters i s
  | enterBdm => exact keepsParameters_next (enterBdmHere_cfg s)
  | tagged k => exact keepsParameters_next (runTagged_cfg s k)
  | interrupt v isXirq => exact keepsParameters_next (takeInterrupt_cfg s v isXirq)
  | resume => exact keepsParameters_next (resume_cfg s)
  | wakeWaiting => exact keepsParameters_next (wakeWaiting_cfg s)
  | wakeStopped => exact keepsParameters_next (wakeStopped_cfg s)
  | idle => exact keepsParameters_next rfl

theorem boundary_keepsParameters (s : State) (tags : List TagKind) : KeepsParameters s.cfg (boundary s tags) := by
  intro t h
  obtain ⟨a, u, -, hu, rfl⟩ := boundary_next.1 h
  rw [finish_cfg, act_keepsParameters _ a u hu, prepare_cfg]

theorem actWithCommand_keepsParameters (s : State) (a : Action) (cut : Cut) (c : Command) :
    KeepsParameters s.cfg (actWithCommand s a cut c) := by
  intro t h
  simp only [actWithCommand] at h
  split at h
  · split at h
    · have hq := commandAmong_cfg ‹_›
      rw [act_keepsParameters _ a t h, hq, prepare_cfg]
    · cases h
  · exact (commandWithin_keepsParameters (fun q => act_keepsParameters q a) _ _ _ _ t h).trans (prepare_cfg _ a)

theorem boundaryWithCommand_keepsParameters (s : State) (tags : List TagKind) (cut : Cut) (c : Command) :
    KeepsParameters s.cfg (boundaryWithCommand s tags cut c) := by
  intro t h
  obtain ⟨a, u, -, hu, rfl⟩ := boundaryWithCommand_next.1 h
  rw [finish_cfg, actWithCommand_keepsParameters s a cut c u hu]

/-! ## The step -/

@[simp] theorem resetWithin_cfg (s : State) (tags : List TagKind) (n : Nat) (src : ResetSource) :
    (resetWithin s tags n src).cfg = s.cfg := by simp [resetWithin]

theorem stepAt_keepsParameters (s : State) (tags : List TagKind) (w : Option Within) :
    KeepsParameters s.cfg (stepAt s tags w) := by
  rcases w with _ | ⟨cut, c⟩ | ⟨n, src⟩
  case none => exact boundary_keepsParameters s tags
  case some.command => exact boundaryWithCommand_keepsParameters s tags cut c
  case some.reset => exact keepsParameters_next (resetWithin_cfg s tags n src)

theorem step_keepsParameters (s : State) : KeepsParameters s.cfg (step s) := by
  unfold step oneStep
  split
  · exact keepsParameters_refused _ _
  · rename_i x hx
    rw [← arrivals_cfg hx]
    split
    · exact keepsParameters_next (takeReset_cfg x.state _)
    · exact (stepAt_keepsParameters x.state x.tags x.within).mapNext closeStep_cfg

/-- Settles O7: no operation that a step is made of writes the parameters, and a fault would need a constructor that
`Fault` does not have (60_exceptions.md R652). -/
theorem everyStepKeepsTheParameters : Obligations.EveryStepKeepsTheParameters := by
  unfold Obligations.EveryStepKeepsTheParameters
  exact fun s => ⟨step_keepsParameters s, nofun⟩

end Sys2Proof.Machine
end

section
/-! PROOF. What every instruction but STOP, WAI and BGND keeps, and what every BDM command of the hardware keeps: the run
state, the parameters, the bits of STATUS that the invariant speaks of, the canonical form of memory, the width of
PPAGE, and X where it is 0. One lemma for each operation of the model, in the order of the model's definitions. -/

namespace Sys2Proof.Machine

/-! ## Bits of the CCR and of STATUS -/

/-- A bit other than the one written. -/
theorem putBit_getLsbD_of_ne (r : Byte) {i k : Nat} (v : Bool) (hi : i < 8) (h : k ≠ i) :
    (putBit r i v).getLsbD k = r.getLsbD k := by rw [putBit_getLsbD r v k hi, if_neg h]

/-- A bit outside a mask does not matter to what the mask leaves. -/
theorem putBit_and (r mask : Byte) {i : Nat} (v : Bool) (hi : i < 8) (h : mask.getLsbD i = false) :
    putBit r i v &&& mask = r &&& mask := by
  apply byte_ext
  intro k hk
  by_cases e : k = i
  · simp only [BitVec.getLsbD_and, e, h, Bool.and_false]
  · simp only [BitVec.getLsbD_and, putBit_getLsbD_of_ne r v hi e]

/-! Bit 6 of the CCR, X, is none of the flags that results write. -/

@[simp] theorem putZ_six (r : Byte) (z : Bool) : (putZ r z)[6] = r[6] := by simp [putZ]
@[simp] theorem putNZ_six (r : Byte) (n z : Bool) : (putNZ r n z)[6] = r[6] := by simp [putNZ]
@[simp] theorem putNZV_six (r : Byte) (n z v : Bool) : (putNZV r n z v)[6] = r[6] := by simp [putNZV]
@[simp] theorem putNZC_six (r : Byte) (n z c : Bool) : (putNZC r n z c)[6] = r[6] := by simp [putNZC]
@[simp] theorem putNZVC_six (r : Byte) (n z v c : Bool) : (putNZVC r n z v c)[6] = r[6] := by simp [putNZVC]
@[simp] theorem putHNZVC_six (r : Byte) (h n z v c : Bool) : (putHNZVC r h n z v c)[6] = r[6] := by simp [putHNZVC]
@[simp] theorem freeHNZVC_six (s : State) : (freeHNZVC s)[6] = s.ccr[6] := by simp [freeHNZVC]
@[simp] theorem putFlags_six {w : Nat} (x : Alu w) (r : Byte) : (x.putFlags r)[6] = r[6] := by simp [Alu.putFlags]
@[simp] theorem protectX_six (old v : Byte) : (protectX old v)[6] = (v[6] && old[6]) := by simp [protectX]

/-- The bits of STATUS that the invariant speaks of: BDMACT, ENTAG and bits 2 to 0 (60_exceptions.md R701). -/
def controlBits (status : Byte) : Byte := status &&& 0x67

/-! ENBDM, SDV and TRACE, bits 7, 4 and 3 of STATUS, are not among them. -/

@[simp] theorem controlBits_enbdm (status : Byte) (v : Bool) : controlBits (putBit status 7 v) = controlBits status :=
  putBit_and status _ v (by decide) rfl
@[simp] theorem controlBits_sdv (status : Byte) (v : Bool) : controlBits (putBit status 4 v) = controlBits status :=
  putBit_and status _ v (by decide) rfl
@[simp] theorem controlBits_trace (status : Byte) (v : Bool) : controlBits (putBit status 3 v) = controlBits status :=
  putBit_and status _ v (by decide) rfl

/-! ## Steady changes -/

/-- PPAGE has no bit that does not exist (10_state.md R37, D6). -/
def PageFits (s : State) : Prop := s.ppage.toNat < 2 ^ s.cfg.ppageBits

/-- From `s` to `t` the run state, the parameters and the control bits of STATUS are kept, memory and PPAGE stay well
formed, and X is not set (10_state.md R35). -/
def Steady (s t : State) : Prop :=
  t.run = s.run ∧ t.cfg = s.cfg ∧ controlBits t.bdm.status = controlBits s.bdm.status ∧
  (Memory.wf s.mem = true → Memory.wf t.mem = true) ∧ (PageFits s → PageFits t) ∧
  (t.ccr.getLsbD 6 = true → s.ccr.getLsbD 6 = true)

theorem Steady.run_eq {s t : State} (h : Steady s t) : t.run = s.run := by
  obtain ⟨hr, -⟩ := h
  exact hr

theorem Steady.xKept {s t : State} (h : Steady s t) : t.ccr.getLsbD 6 = true → s.ccr.getLsbD 6 = true := by
  obtain ⟨-, -, -, -, -, hx⟩ := h
  exact hx

@[simp] theorem Steady.refl (s : State) : Steady s s := ⟨rfl, rfl, rfl, id, id, id⟩

theorem Steady.trans {s t u : State} (h : Steady s t) (g : Steady t u) : Steady s u := by
  obtain ⟨hr, hc, hb, hm, hp, hx⟩ := h
  obtain ⟨gr, gc, gb, gm, gp, gx⟩ := g
  exact ⟨gr.trans hr, gc.trans hc, gb.trans hb, gm ∘ hm, gp ∘ hp, hx ∘ gx⟩

section
variable {s t : State}

/-! ## Registers and flags -/

@[simp] theorem steady_setA (v : Byte) : Steady s (t.setA v) ↔ Steady s t := .rfl
@[simp] theorem steady_setB (v : Byte) : Steady s (t.setB v) ↔ Steady s t := .rfl
@[simp] theorem steady_setD (v : Word) : Steady s (t.setD v) ↔ Steady s t := .rfl
@[simp] theorem steady_setX (v : Word) : Steady s (t.setX v) ↔ Steady s t := .rfl
@[simp] theorem steady_setY (v : Word) : Steady s (t.setY v) ↔ Steady s t := .rfl
@[simp] theorem steady_setSp (v : Word) : Steady s (t.setSp v) ↔ Steady s t := .rfl
@[simp] theorem steady_drop (n : Word) : Steady s (drop t n) ↔ Steady s t := .rfl
@[simp] theorem steady_jump (a : Word) : Steady s (jump t a) ↔ Steady s t := .rfl

/-- A CCR whose X is that of the start, or 0. -/
@[simp] theorem steady_setCcr {v : Byte} (hx : v.getLsbD 6 = true → s.ccr.getLsbD 6 = true) (h : Steady s t) :
    Steady s (t.setCcr v) := by
  obtain ⟨hr, hc, hb, hm, hp, -⟩ := h
  exact ⟨hr, hc, hb, hm, hp, hx⟩

/-- A CCR with the state's own X: flags of a result. -/
theorem steady_setFlags {v : Byte} (hx : v[6] = t.ccr[6]) : Steady s (t.setCcr v) ↔ Steady s t := by
  have hv : v.getLsbD 6 = t.ccr.getLsbD 6 := by simpa using hx
  simp only [Steady, PageFits, hv, State.setCcr]

/-- A CCR whose X is the state's own, or 0. -/
theorem Steady.setOwnCcr (h : Steady s t) {v : Byte} (hx : v.getLsbD 6 = true → t.ccr.getLsbD 6 = true) :
    Steady s (t.setCcr v) := steady_setCcr (h.xKept ∘ hx) h

@[simp] theorem steady_loadCcr (h : Steady s t) (v : Byte) : Steady s (t.loadCcr v) := h.setOwnCcr (by simp)
@[simp] theorem steady_nzv0 {w : Nat} (v : BitVec w) : Steady s (t.nzv0 v) ↔ Steady s t := steady_setFlags (by simp)
@[simp] theorem steady_nzvc {w : Nat} (r : Alu w) : Steady s (t.nzvc r) ↔ Steady s t := steady_setFlags (by simp)

/-! ## Memory -/

/-- PPAGE written with the bits that exist. -/
theorem pageFits_pageBits (s : State) (v : Byte) : PageFits { s with ppage := pageBits s.cfg.ppageBits v } :=
  pageBits_lt _ v

theorem pageFits_writeTarget (h : PageFits s) (g : Target) (v : Byte) : PageFits (writeTarget s g v) := by
  obtain ⟨st, e⟩ := writeTarget_eq s g v
  rw [e]
  cases g with
  | ppage => exact pageBits_lt _ v
  | _ => exact h

@[simp] theorem steady_writeTarget (h : Steady s t) (g : Target) (v : Byte) : Steady s (writeTarget t g v) :=
  h.trans ⟨by simp, by simp, by simp, fun hm => Memory.wf_writeTarget hm g v, fun hp => pageFits_writeTarget hp g v,
    by simp⟩

@[simp] theorem steady_write8 (h : Steady s t) (a : Word) (v : Byte) : Steady s (write8 t a v) :=
  steady_writeTarget h _ v
@[simp] theorem steady_write16 (h : Steady s t) (a v : Word) : Steady s (write16 t a v) :=
  steady_writeTarget (steady_writeTarget h _ _) _ _
@[simp] theorem steady_store8 (h : Steady s t) (a : Word) (v : Byte) : Steady s (store8 t a v) := steady_write8 h a v
@[simp] theorem steady_store16 (h : Steady s t) (a v : Word) : Steady s (store16 t a v) := steady_write16 h a v

@[simp] theorem steady_setPpage (h : Steady s t) (v : Byte) : Steady s (setPpage t v) :=
  h.trans ⟨rfl, rfl, rfl, id, fun _ => pageFits_pageBits t v, id⟩

theorem steady_applyStore (h : Steady s t) (e : Store) : Steady s (applyStore t e) := by
  cases e with
  | byte a v => exact steady_write8 h a v
  | word a v => exact steady_write16 h a v
  | page v => exact steady_setPpage h v

@[simp] theorem steady_applyStores (h : Steady s t) (es : List Store) : Steady s (applyStores t es) := by
  induction es generalizing t with
  | nil => exact h
  | cons e es ih => exact ih (steady_applyStore h e)

/-! ## Stack, page register and exceptions -/

@[simp] theorem steady_writePpage (h : Steady s t) (v : Byte) : Steady s (writePpage t v) := by
  unfold writePpage
  split
  · exact h
  · exact steady_setPpage h v

@[simp] theorem steady_push8 (h : Steady s t) (v : Byte) : Steady s (push8 t v) :=
  steady_store8 ((steady_setSp _).2 h) _ v
@[simp] theorem steady_push16 (h : Steady s t) (v : Word) : Steady s (push16 t v) :=
  steady_store16 ((steady_setSp _).2 h) _ v

@[simp] theorem steady_pushFrame (h : Steady s t) (rtn : Word) : Steady s (pushFrame t rtn) :=
  steady_push8 (steady_push16 (steady_push16 (steady_push16 (steady_push16 h _) _) _) _) _

/-- An exception that is no XIRQ sets I alone. -/
theorem steady_maskInterrupts : Steady s (maskInterrupts t false) ↔ Steady s t := steady_setFlags (by simp)

theorem steady_dropTemporaries : Steady s (dropTemporaries t) ↔ Steady s t := .rfl

@[simp] theorem steady_takeException (h : Steady s t) (vector rtn : Word) :
    Steady s (takeException t vector rtn false) := by
  unfold takeException
  rw [steady_jump, steady_dropTemporaries, steady_maskInterrupts]
  exact steady_pushFrame h rtn

@[simp] theorem steady_returnFromException (h : Steady s t) : Steady s (returnFromException t) := by
  have hx : Steady s (t.loadCcr (read8 t .stack t.sp)) := steady_loadCcr h _
  exact hx

/-! ## Operands -/

/-- An addressing mode's register update. -/
theorem OnlyIndexes.steady {u : State} (e : OnlyIndexes t u) : Steady s u ↔ Steady s t := by
  rw [OnlyIndexes] at e
  rw [e]
  exact .rfl

@[simp] theorem steady_idxUpdate (m : Idx) : Steady s (idxUpdate t m) ↔ Steady s t :=
  (onlyIndexes_idxUpdate t m).steady
@[simp] theorem steady_idxXUpdate (m : IdxX) : Steady s (idxXUpdate t m) ↔ Steady s t :=
  (onlyIndexes_idxXUpdate t m).steady
@[simp] theorem steady_idxIUpdate (m : IdxI) : Steady s (idxIUpdate t m) ↔ Steady s t :=
  (onlyIndexes_idxIUpdate t m).steady
@[simp] theorem steady_src8Update (o : Src8) : Steady s (src8Update t o) ↔ Steady s t :=
  (onlyIndexes_src8Update t o).steady
@[simp] theorem steady_src16Update (o : Src16) : Steady s (src16Update t o) ↔ Steady s t :=
  (onlyIndexes_src16Update t o).steady
@[simp] theorem steady_mem3Update (m : Mem3) : Steady s (mem3Update t m) ↔ Steady s t :=
  (onlyIndexes_mem3Update t m).steady
@[simp] theorem steady_mem2Update (m : Mem2) : Steady s (mem2Update t m) ↔ Steady s t :=
  (onlyIndexes_mem2Update t m).steady
@[simp] theorem steady_bitUpdate (m : BitEa) : Steady s (bitUpdate t m) ↔ Steady s t :=
  (onlyIndexes_bitUpdate t m).steady
@[simp] theorem steady_callUpdate (dest : CallDest) : Steady s (callUpdate t dest) ↔ Steady s t :=
  (onlyIndexes_callUpdate t dest).steady
@[simp] theorem steady_moveSource8Update (m : MovSrc8) : Steady s (moveSource8Update t m) ↔ Steady s t :=
  (onlyIndexes_moveSource8Update t m).steady
@[simp] theorem steady_moveSource16Update (m : MovSrc16) : Steady s (moveSource16Update t m) ↔ Steady s t :=
  (onlyIndexes_moveSource16Update t m).steady
@[simp] theorem steady_moveDestUpdate (m : MovDst) : Steady s (moveDestUpdate t m) ↔ Steady s t :=
  (onlyIndexes_moveDestUpdate t m).steady

/-! ## Arithmetic, logic, shifts -/

@[simp] theorem steady_addFlags (a m : Byte) (r : Alu 8) : Steady s (t.addFlags a m r) ↔ Steady s t :=
  steady_setFlags (by simp)
@[simp] theorem steady_addToA (m : Byte) (cin : Bool) : Steady s (addToA m cin t) ↔ Steady s t :=
  steady_addFlags _ m _
@[simp] theorem steady_addToB (m : Byte) (cin : Bool) : Steady s (addToB m cin t) ↔ Steady s t :=
  steady_addFlags _ m _
@[simp] theorem steady_subFromA (m : Byte) (bin : Bool) : Steady s (subFromA m bin t) ↔ Steady s t := steady_nzvc _
@[simp] theorem steady_subFromB (m : Byte) (bin : Bool) : Steady s (subFromB m bin t) ↔ Steady s t := steady_nzvc _
@[simp] theorem steady_compare {w : Nat} (r m : BitVec w) : Steady s (compare r m t) ↔ Steady s t := steady_nzvc _
@[simp] theorem steady_stepFlags (r : Byte) (v : Bool) : Steady s (t.stepFlags r v) ↔ Steady s t :=
  steady_setFlags (by simp)
@[simp] theorem steady_zeroFlag (r : Word) : Steady s (t.zeroFlag r) ↔ Steady s t := steady_setFlags (by simp)
@[simp] theorem steady_daaResult (r : Byte) (c : Bool) : Steady s (daaResult t r c) ↔ Steady s t :=
  steady_setFlags (by simp)
@[simp] theorem steady_andCcr (h : Steady s t) (mask : Byte) : Steady s (andCcr mask t) :=
  h.setOwnCcr (by simp +contextual)
@[simp] theorem steady_orCcr (mask : Byte) : Steady s (orCcr mask t) ↔ Steady s t := steady_setFlags (by simp)
@[simp] theorem steady_modifyA (f : Byte → Alu 8) : Steady s (modifyA f t) ↔ Steady s t := steady_nzvc _
@[simp] theorem steady_modifyB (f : Byte → Alu 8) : Steady s (modifyB f t) ↔ Steady s t := steady_nzvc _
@[simp] theorem steady_modifyD (f : Word → Alu 16) : Steady s (modifyD f t) ↔ Steady s t := steady_nzvc _
@[simp] theorem steady_emacsFlags (m i r : BitVec 32) : Steady s (emacsFlags t m i r) ↔ Steady s t :=
  steady_setFlags (by simp)
@[simp] theorem steady_setYD (v : BitVec 32) : Steady s (setYD t v) ↔ Steady s t := .rfl
@[simp] theorem steady_productFlags (p : BitVec 32) : Steady s (productFlags t p) ↔ Steady s t :=
  steady_setFlags (by simp)
@[simp] theorem steady_divideByZero : Steady s (divideByZero t) ↔ Steady s t := steady_setFlags (by simp)
@[simp] theorem steady_overflowFlags : Steady s (overflowFlags t) ↔ Steady s t := steady_setFlags (by simp)
@[simp] theorem steady_quotientFlags (q : Word) : Steady s (quotientFlags t q) ↔ Steady s t :=
  steady_setFlags (by simp)
@[simp] theorem steady_fractionFlags (z v c : Bool) : Steady s (fractionFlags t z v c) ↔ Steady s t :=
  steady_setFlags (by simp)

/-! ## Stores of the instructions -/

@[simp] theorem steady_storeByte (h : Steady s t) (v : Byte) (m : Mem3) : Steady s (storeByte v m t) := by
  simp [storeByte, h]
@[simp] theorem steady_storeWord (h : Steady s t) (v : Word) (m : Mem3) : Steady s (storeWord v m t) := by
  simp [storeWord, h]
@[simp] theorem steady_modifyByte (h : Steady s t) (f : Byte → Alu 8) (m : Mem2) : Steady s (modifyByte f m t) := by
  simp [modifyByte, h]
@[simp] theorem steady_modifyBits (h : Steady s t) (f : Byte → Byte) (m : BitEa) : Steady s (modifyBits f m t) := by
  simp [modifyBits, h]

/-! ## Branches and transfers -/

@[simp] theorem steady_branchIf (h : Steady s t) (cond : Bool) (offset : Word) : Steady s (branchIf cond offset t) := by
  cases cond <;> exact h
@[simp] theorem steady_incCounter (h : Steady s t) (r : LoopReg) : Steady s (incCounter t r) := by cases r <;> exact h
@[simp] theorem steady_decCounter (h : Steady s t) (r : LoopReg) : Steady s (decCounter t r) := by cases r <;> exact h
@[simp] theorem steady_branchIfZero (h : Steady s t) (r : LoopReg) (rel : BitVec 9) :
    Steady s (branchIfZero r rel t) := steady_branchIf h _ _
@[simp] theorem steady_branchIfNonzero (h : Steady s t) (r : LoopReg) (rel : BitVec 9) :
    Steady s (branchIfNonzero r rel t) := steady_branchIf h _ _

@[simp] theorem steady_setTreg8 (h : Steady s t) (v : Byte) (r : TReg) : Steady s (setTreg8 t v r) := by
  cases r with
  | ccr => exact steady_loadCcr h v
  | _ => exact h

@[simp] theorem steady_setTreg16 (h : Steady s t) (v : Word) (first : Bool) (r : TReg) :
    Steady s (setTreg16 t v first r) := by
  cases r with
  | tmp => cases first <;> exact h
  | _ => exact h

@[simp] theorem steady_transfer (h : Steady s t) (src dst : TReg) : Steady s (transfer src dst t) := by
  unfold transfer
  split <;> simp [h]

@[simp] theorem steady_exchange (h : Steady s t) (r1 r2 : TReg) : Steady s (exchange r1 r2 t) := by
  simp only [exchange]
  split
  · simp [h]
  · simp [h]
  · split <;> simp [h]
  · split <;> simp [h]

/-! ## REV, REVW and WAV: each pass, then any number of passes -/

@[simp] theorem steady_nextDraw : Steady s (nextDraw t) ↔ Steady s t := .rfl
@[simp] theorem steady_finished : Steady s (finished t) ↔ Steady s t := .rfl
@[simp] theorem steady_consume (bytes : List Word) : Steady s (consume t bytes) ↔ Steady s t := .rfl
@[simp] theorem steady_toggleV : Steady s (toggleV t) ↔ Steady s t := steady_setFlags (by simp)

@[simp] theorem steady_antecedent (h : Steady s t) (m : Byte) : Steady s (antecedent t m) := by
  unfold antecedent
  split <;> exact h

@[simp] theorem steady_consequent (h : Steady s t) (addr : Word) (m : Byte) : Steady s (consequent t addr m) := by
  unfold consequent
  split
  · exact steady_store8 h addr t.a
  · exact h

@[simp] theorem steady_revPass (h : Steady s t) : Steady s (revPass t) := by
  simp only [revPass]
  repeat' split
  all_goals simp [h]

@[simp] theorem steady_revwPass (h : Steady s t) : Steady s (revwPass t) := by
  simp only [revwPass]
  repeat' split
  all_goals simp [h]

theorem steady_ruleLoop {pass : State → State} (hpass : ∀ u, Steady u (pass u)) (h : Steady s t) (n : Nat) :
    Steady s (ruleLoop pass n t) := by
  induction n generalizing t with
  | zero => exact h
  | succ n ih =>
    have hp : Steady s (pass t) := h.trans (hpass t)
    simp only [ruleLoop]
    split
    · exact h
    · split
      · exact hp
      · exact ih hp

@[simp] theorem steady_endRev (h : Steady s t) : Steady s (endRev t) := by
  have hc : Steady s (t.setCcr (putBit (putNZC t.ccr (freeFlag t 3) (freeFlag t 2) (freeFlag t 0)) 5 (freeFlag t 5))) :=
    (steady_setFlags (by simp)).2 h
  simp only [endRev]
  split <;> exact hc

@[simp] theorem steady_endRevw (h : Steady s t) : Steady s (endRevw t) := by
  have hc : Steady s (t.setCcr (putBit (putNZ t.ccr (freeFlag t 3) (freeFlag t 2)) 5 (freeFlag t 5))) :=
    (steady_setFlags (by simp)).2 h
  simp only [endRevw]
  split <;> exact hc

@[simp] theorem steady_runRev (h : Steady s t) : Steady s (runRev t) :=
  steady_endRev (steady_ruleLoop (fun u => steady_revPass (.refl u)) h _)

@[simp] theorem steady_runRevw (h : Steady s t) : Steady s (runRevw t) :=
  steady_endRevw (steady_ruleLoop (fun u => steady_revwPass (.refl u)) h _)

@[simp] theorem steady_enterRules (h : Steady s t) : Steady s (enterRules t) := by
  rw [enterRules_eq]
  exact h

@[simp] theorem steady_suspendRules (h : Steady s t) : Steady s (suspendRules t) := by
  unfold suspendRules
  split <;> exact h

@[simp] theorem steady_wavPass (h : Steady s t) : Steady s (wavPass t) := by
  simp only [wavPass]
  split <;> exact h

@[simp] theorem steady_wavLoop (h : Steady s t) (n : Nat) : Steady s (wavLoop n t) := by
  induction n generalizing t with
  | zero => exact h
  | succ n ih =>
    simp only [wavLoop]
    split
    · exact steady_wavPass h
    · exact ih (steady_wavPass h)

@[simp] theorem steady_endWav (h : Steady s t) : Steady s (endWav t) := by
  have hfree : Steady s (t.setCcr (freeHNZVC t)) := (steady_setFlags (by simp)).2 h
  have hzero : Steady s (t.setCcr (putBit (freeHNZVC t) 2 true)) := (steady_setFlags (by simp)).2 h
  unfold endWav
  split
  · exact hzero
  · exact hfree

@[simp] theorem steady_runWav (h : Steady s t) : Steady s (runWav t) := steady_endWav (steady_wavLoop h _)

end

/-! ## The instructions -/

/-- Every next state that an answer gives has a property. -/
def Yields (P : State → Prop) (r : Res) : Prop := ∀ t, r = .next t → P t

theorem yields_next {P : State → Prop} {t : State} (h : P t) : Yields P (.next t) := by
  rintro _ ⟨⟩
  exact h

theorem yields_refused (P : State → Prop) (r : Refusal) : Yields P (.refused r) := by
  intro t h
  cases h

theorem Yields.imp {P Q : State → Prop} {r : Res} (h : Yields P r) (hpq : ∀ t, P t → Q t) : Yields Q r :=
  fun t e => hpq t (h t e)

theorem execDaa_steady (s : State) : Yields (Steady s) (execDaa s) := by
  unfold execDaa
  split <;> exact yields_next (by simp)

theorem execEdiv_steady (s : State) : Yields (Steady s) (execEdiv s) := by
  simp only [execEdiv]
  repeat' split
  all_goals exact yields_next (by simp)

theorem execEdivs_steady (s : State) : Yields (Steady s) (execEdivs s) := by
  simp only [execEdivs]
  repeat' split
  all_goals exact yields_next (by simp)

theorem execFdiv_steady (s : State) : Yields (Steady s) (execFdiv s) := by
  simp only [execFdiv]
  split <;> exact yields_next (by simp)

theorem execIdiv_steady (s : State) : Yields (Steady s) (execIdiv s) := by
  simp only [execIdiv]
  split <;> exact yields_next (by simp)

theorem execIdivs_steady (s : State) : Yields (Steady s) (execIdivs s) := by
  simp only [execIdivs]
  repeat' split
  all_goals exact yields_next (by simp)

theorem execCall_steady (dest : CallDest) (s : State) : Yields (Steady s) (execCall dest s) :=
  yields_next (steady_push8 (steady_push16 (steady_writePpage ((steady_callUpdate dest).2 (.refl s)) _) _) _)

theorem execRev_steady (s : State) : Yields (Steady s) (execRev s) :=
  yields_next (steady_runRev (t := { enterRules s with progress := .rev }) (steady_enterRules (.refl s)))

theorem execRevw_steady (s : State) : Yields (Steady s) (execRevw s) :=
  yields_next (steady_runRevw (t := { enterRules s with progress := .revw }) (steady_enterRules (.refl s)))

theorem execWav_steady (s : State) : Yields (Steady s) (execWav s) :=
  yields_next (steady_runWav (t := { s.setB (s.b - 1) with tmp1 := 0, tmp2 := 0, tmp3 := 0, progress := .wav })
    (.refl s))

theorem execWavr_steady (s : State) : Yields (Steady s) (execWavr s) :=
  yields_next (steady_endWav (steady_wavLoop (t := drop { s with
    tmp1 := read16 s .stack s.sp
    tmp2 := read16 s .stack2 (s.sp + 2)
    tmp3 := read16 s .stack3 (s.sp + 4)
    progress := .wav } 6) (.refl s) _))

/-- What an instruction can do: all but three are steady; STOP and WAI push a frame and suspend, BGND enters BDM. -/
inductive InstrEffect (s : State) : State → Prop where
  | steady {t : State} (h : Steady s t) : InstrEffect s t
  | suspended (r : RunState) (h : r = .stopped ∨ r = .waiting) : InstrEffect s { pushFrame s s.pc with run := r }
  | entersBdm (tmp2 : Word) : InstrEffect s (enterBdm s tmp2)

/-- Beside those whose answer has several cases, every steady instruction answers one next state, built of the operations
above. -/
theorem exec_effect (i : Instr) (s : State) : Yields (InstrEffect s) (exec i s) := by
  cases i with
  | stop =>
    change Yields _ (execStop s)
    unfold execStop
    split
    · exact yields_next (.steady (.refl s))
    · exact yields_next (.suspended .stopped (.inl rfl))
  | wai => exact yields_next (.suspended .waiting (.inr rfl))
  | bgnd => exact yields_next (.entersBdm _)
  | undefined e => exact yields_refused _ _
  | daa => exact (execDaa_steady s).imp fun _ => .steady
  | ediv => exact (execEdiv_steady s).imp fun _ => .steady
  | edivs => exact (execEdivs_steady s).imp fun _ => .steady
  | fdiv => exact (execFdiv_steady s).imp fun _ => .steady
  | idiv => exact (execIdiv_steady s).imp fun _ => .steady
  | idivs => exact (execIdivs_steady s).imp fun _ => .steady
  | call dest => exact (execCall_steady dest s).imp fun _ => .steady
  | rev => exact (execRev_steady s).imp fun _ => .steady
  | revw => exact (execRevw_steady s).imp fun _ => .steady
  | wav => exact (execWav_steady s).imp fun _ => .steady
  | wavr => exact (execWavr_steady s).imp fun _ => .steady
  | _ =>
    refine yields_next (.steady ?_)
    simp

/-- The CCR is held, not changed, on an activation of BDM (60_exceptions.md R704). -/
theorem enterBdm_ccr (s : State) (tmp2 : Word) : (enterBdm s tmp2).ccr = s.ccr := by
  cases h : bdmEnabled s with
  | true => rw [enterBdm_enabled h]
  | false => rw [enterBdm_disabled h]

/-- None of them sets X. -/
theorem InstrEffect.xKept {s t : State} (h : InstrEffect s t) : t.ccr.getLsbD 6 = true → s.ccr.getLsbD 6 = true := by
  cases h with
  | steady h => exact h.xKept
  | suspended r hr => exact (steady_pushFrame (.refl s) s.pc).xKept
  | entersBdm tmp2 =>
    rw [enterBdm_ccr]
    exact id

/-- Settles O10: no instruction's effect sets X. -/
theorem noInstructionSetsTheXMask : Obligations.NoInstructionSetsTheXMask := by
  unfold Obligations.NoInstructionSetsTheXMask
  exact fun i s t h => (exec_effect i s t h).xKept

end Sys2Proof.Machine
end

section
/-! PROOF. Registers and flags: accumulator D, the writers of the CCR from data, and the state after reset. -/

namespace Sys2Proof.Machine

/-- D as a number (10_state.md R22). -/
theorem toNat_d (s : State) : s.d.toNat = s.a.toNat * 256 + s.b.toNat := toNat_joinBytes s.a s.b

/-- Settles O13: D is the two accumulators joined, and the halves of a joined word are what was joined. -/
theorem accumulatorDIsAAndBJoined : Obligations.AccumulatorDIsAAndBJoined := by
  unfold Obligations.AccumulatorDIsAAndBJoined
  refine ⟨toNat_d, fun s v => ⟨toNat_hiByte v, toNat_loByte v, joinBytes_hiByte_loByte v⟩, fun s v => ?_⟩
  have hb : s.b.toNat < 256 := s.b.isLt
  constructor
  · rw [toNat_d, toNat_d, State.setA_a, State.setA_b]
    omega
  · rw [toNat_d, toNat_d, State.setB_a, State.setB_b]
    omega

/-! ## Writers of the CCR from data (R35) -/

/-- The CCR as destination of TFR. -/
theorem loadsCcr_transfer (s : State) (r : TReg) : LoadsCcr s (transfer r .ccr s) (treg8 s (readTmp3 s) r) :=
  loadsCcr_protectX s _ _ rfl

@[simp] theorem setTreg16_ccr (s : State) (v : Word) (first : Bool) (r : TReg) :
    (setTreg16 s v first r).ccr = s.ccr := by
  cases r with
  | tmp => cases first <;> rfl
  | _ => rfl

/-- The CCR loaded from itself does not change. -/
theorem protectX_self (r : Byte) : protectX r r = r := by
  apply byte_ext
  intro k _
  by_cases h : k = 6
  · simp [protectX, h]
  · rw [protectX, putBit_getLsbD_of_ne _ _ (by decide) h]

/-- EXG CCR,CCR loads the CCR from itself twice. -/
theorem exchange_ccr_ccr (s : State) : (exchange .ccr .ccr s).ccr = protectX s.ccr s.ccr := by
  change protectX (protectX s.ccr s.ccr) s.ccr = protectX s.ccr s.ccr
  rw [protectX_self, protectX_self]

/-- The CCR as first operand of EXG takes the second operand's value; with itself, twice. -/
theorem loadsCcr_exchange_first (s : State) (r : TReg) :
    LoadsCcr s (exchange .ccr r s) (treg8 s (readTmp2 s) r) := by
  apply loadsCcr_protectX
  cases r with
  | ccr => exact exchange_ccr_ccr s
  | a | b => rfl
  | _ => simp [exchange, is8, setTreg8]

/-- The CCR as second operand of EXG takes the first operand's value. -/
theorem loadsCcr_exchange_second (s : State) (r : TReg) :
    LoadsCcr s (exchange r .ccr s) (treg8 s (readTmp3 s) r) := by
  apply loadsCcr_protectX
  cases r with
  | ccr => exact exchange_ccr_ccr s
  | a | b => rfl
  | _ => simp [exchange, is8, setTreg8]

theorem loadsCcr_orCcr (s : State) (m : Byte) : LoadsCcr s (orCcr m s) (s.ccr ||| m) := by
  simpa [LoadsCcr, CcrIs, orCcr, State.flagS, State.flagX, State.flagH, State.flagI, State.flagN, State.flagZ,
    State.flagV, State.flagC] using Or.inl

theorem andCcr_clears (s : State) (m : Byte) (k : Nat) (h : (andCcr m s).ccr.getLsbD k = true) :
    s.ccr.getLsbD k = true ∧ m.getLsbD k = true := by
  simpa only [andCcr, State.setCcr_ccr, BitVec.getLsbD_and, Bool.and_eq_true] using h

/-- Settles O12: each writer loads the CCR through `protectX`, ORCC leaves bit 6 out of its mask, and ANDCC is an
intersection. -/
theorem ccrWritersObeyTheXBitProtectionRule : Obligations.CcrWritersObeyTheXBitProtectionRule := by
  unfold Obligations.CcrWritersObeyTheXBitProtectionRule
  refine ⟨fun s => ⟨_, rfl, loadsCcr_transfer s .a⟩, fun s r => ⟨_, rfl, loadsCcr_transfer s r⟩,
    fun s r => ⟨_, rfl, loadsCcr_exchange_first s r⟩, fun s r => ⟨_, rfl, loadsCcr_exchange_second s r⟩,
    fun s => ⟨_, rfl, loadsCcr_protectX s _ _ rfl⟩, fun s => ⟨_, rfl, loadsCcr_protectX s _ _ rfl⟩,
    fun s m => ⟨_, rfl, loadsCcr_orCcr s m⟩, fun s m => ⟨_, rfl, andCcr_clears s m⟩⟩

/-! ## The state after reset -/

/-- Settles O4, by evaluation of the one state after reset. -/
theorem resetSetsTheMasksAndLoadsThePc : Obligations.ResetSetsTheMasksAndLoadsThePc := by
  unfold Obligations.ResetSetsTheMasksAndLoadsThePc
  exact ⟨rfl, rfl, rfl, by decide, rfl, rfl, rfl, rfl⟩

/-- Settles O5: memory is empty, PPAGE and STATUS are 0, the machine runs and nothing is in progress. -/
theorem resetHasTheInvariant : Obligations.ResetHasTheInvariant := by
  unfold Obligations.ResetHasTheInvariant
  exact ⟨Memory.wf_reset, by decide, by decide, by decide, rfl, by decide, rfl, rfl⟩

end Sys2Proof.Machine
end

section
/-! PROOF. Every step keeps the invariant: what a step keeps while it runs, for each BDM command, reset, event and
boundary action, then for the step as a whole. -/

namespace Sys2Proof.Machine

/-! ## The invariant while a step runs -/

/-- STATUS agrees with the run state: BDMACT says whether BDM is active, ENTAG is 0 there and bits 2 to 0 are 0
(60_exceptions.md R701, log 26). -/
def StatusFits (status : Byte) (r : RunState) : Prop :=
  (status.getLsbD 6 = true ↔ r = .bdmActive) ∧ (status.getLsbD 5 = true → r ≠ .bdmActive) ∧ status &&& 7 = 0

/-- The invariant without the two fields that are empty between steps only (log 38). -/
structure Coherent (s : State) : Prop where
  wf : Memory.wf s.mem = true
  page : PageFits s
  status : StatusFits s.bdm.status s.run
  progress : s.progress ≠ .none → s.run = .running

theorem inv_iff (s : State) : Inv s ↔ Coherent s ∧ s.stores = [] ∧ s.earlier = none := by
  constructor
  · rintro ⟨hm, hp, hact, htag, hlow, hrun, hst, he⟩
    exact ⟨⟨hm, hp, ⟨hact, htag, hlow⟩, hrun⟩, hst, he⟩
  · rintro ⟨⟨hm, hp, ⟨hact, htag, hlow⟩, hrun⟩, hst, he⟩
    exact ⟨hm, hp, hact, htag, hlow, hrun, hst, he⟩

/-- `StatusFits` reads the control bits alone. -/
theorem statusFits_congr {b c : Byte} (h : controlBits b = controlBits c) (r : RunState) :
    StatusFits b r ↔ StatusFits c r := by
  have bit (k : Nat) (hk : (0x67 : Byte).getLsbD k = true) : b.getLsbD k = c.getLsbD k := by
    have hb : (controlBits b).getLsbD k = (controlBits c).getLsbD k := by rw [h]
    simpa only [controlBits, BitVec.getLsbD_and, hk, Bool.and_true] using hb
  have low (d : Byte) : d &&& 7 = controlBits d &&& 7 := (BitVec.and_assoc d 0x67 7).symm
  rw [StatusFits, StatusFits, bit 6 rfl, bit 5 rfl, low b, low c, h]

/-- Outside active BDM all run states fit the same STATUS. -/
theorem StatusFits.of_ne {b : Byte} {r q : RunState} (h : StatusFits b r) (hr : r ≠ .bdmActive) (hq : q ≠ .bdmActive) :
    StatusFits b q := by
  obtain ⟨hact, -, hlow⟩ := h
  exact ⟨iff_of_false (fun e => hr (hact.1 e)) hq, fun _ => hq, hlow⟩

theorem StatusFits.low {b : Byte} {r : RunState} (h : StatusFits b r) : b &&& 7 = 0 := by
  obtain ⟨-, -, hlow⟩ := h
  exact hlow

/-- BDM left: BDMACT cleared. -/
theorem statusFits_left {b : Byte} (hlow : b &&& 7 = 0) : StatusFits (putBit b 6 false) .running := by
  refine ⟨?_, nofun, ?_⟩
  · simp
  · rw [putBit_and _ _ _ (by decide) rfl, hlow]

/-- BDM entered: BDMACT set and ENTAG cleared. -/
theorem statusFits_entered {b : Byte} (hlow : b &&& 7 = 0) :
    StatusFits (putBit (putBit b 6 true) 5 false) .bdmActive := by
  refine ⟨?_, ?_, ?_⟩
  · simp
  · simp
  · rw [putBit_and _ _ _ (by decide) rfl, putBit_and _ _ _ (by decide) rfl, hlow]

/-- A steady change keeps it, if it starts nothing that does not run. -/
theorem Coherent.of_steady {s t : State} (hs : Coherent s) (h : Steady s t)
    (hp : t.progress ≠ .none → s.run = .running) : Coherent t := by
  obtain ⟨hr, -, hb, hm, hpage, -⟩ := h
  refine ⟨hm hs.wf, hpage hs.page, ?_, fun hn => hr.trans (hp hn)⟩
  rw [hr, statusFits_congr hb]
  exact hs.status

/-- BDM is entered where no instruction is in progress. -/
theorem Coherent.enterBdm {s : State} (hs : Coherent s) (hp : s.progress = .none) (tmp2 : Word) :
    Coherent (enterBdm s tmp2) := by
  cases h : bdmEnabled s with
  | true =>
    rw [enterBdm_enabled h]
    exact ⟨hs.wf, hs.page, statusFits_entered hs.status.low, fun hn => absurd hp hn⟩
  | false =>
    rw [enterBdm_disabled h]
    exact ⟨hs.wf, hs.page, hs.status, hs.progress⟩

@[simp] theorem enterBdm_stores (s : State) (tmp2 : Word) : (enterBdm s tmp2).stores = s.stores := by
  cases h : bdmEnabled s with
  | true => rw [enterBdm_enabled h]
  | false => rw [enterBdm_disabled h]

/-! ## BDM commands: what they keep of the BDM registers, the instruction in progress and the stores -/

section
variable {s t : State}

/-- BDM registers written, the control bits of STATUS kept. -/
theorem steady_bdm {b : Bdm} (hb : controlBits b.status = controlBits t.bdm.status) :
    Steady s { t with bdm := b } ↔ Steady s t := by
  simp only [Steady, PageFits, hb]

@[simp] theorem steady_setShift (v : Word) : Steady s (setShift t v) ↔ Steady s t := steady_bdm (by simp)
@[simp] theorem steady_beginCommand : Steady s (beginCommand t) ↔ Steady s t := steady_bdm (by simp)
@[simp] theorem steady_bdmLatch (op : Byte) (addr : Word) : Steady s (bdmLatch t op addr) ↔ Steady s t :=
  steady_bdm rfl
@[simp] theorem steady_byteOut (addr : Word) (v : Byte) : Steady s (byteOut t addr v) ↔ Steady s t :=
  steady_setShift _

@[simp] theorem steady_requestBdm (h : Steady s t) : Steady s (requestBdm t) := by
  unfold requestBdm
  split <;> exact h

theorem steady_writeBdmResource (h : Steady s t) (a : Word) (v : Byte) : Steady s (writeBdmResource t a v) := by
  have enbdm : Steady s { t with bdm := { t.bdm with status := putBit t.bdm.status 7 (v.getLsbD 7) } } :=
    (steady_bdm (by simp)).2 h
  simp only [writeBdmResource]
  repeat' split
  case isFalse.isTrue => exact enbdm
  all_goals exact h

@[simp] theorem steady_writeMapTarget (h : Steady s t) (g : MapTarget) (v : Byte) :
    Steady s (writeMapTarget t g v) := by
  cases g with
  | bdm a => exact steady_writeBdmResource h a v
  | user g => exact steady_writeTarget h g v

@[simp] theorem steady_write8InMap (h : Steady s t) (a : Word) (v : Byte) : Steady s (write8InMap t a v) :=
  steady_writeMapTarget h _ v
@[simp] theorem steady_write16InMap (h : Steady s t) (a v : Word) : Steady s (write16InMap t a v) :=
  steady_writeMapTarget (steady_writeMapTarget h _ _) _ _
@[simp] theorem steady_writeNext (h : Steady s t) (data : Word) : Steady s (writeNext t data) :=
  steady_write16InMap ((steady_setX _).2 h) _ data
@[simp] theorem steady_readNext : Steady s (readNext t) ↔ Steady s t := steady_setShift _

end

@[simp] theorem writeMapTarget_progress (s : State) (g : MapTarget) (v : Byte) :
    (writeMapTarget s g v).progress = s.progress := by rw [writeMapTarget_eq]
@[simp] theorem write8InMap_progress (s : State) (a : Word) (v : Byte) : (write8InMap s a v).progress = s.progress :=
  writeMapTarget_progress s _ v
@[simp] theorem write16InMap_progress (s : State) (a v : Word) : (write16InMap s a v).progress = s.progress := by
  simp [write16InMap]
@[simp] theorem bdmLatch_progress (s : State) (op : Byte) (addr : Word) : (bdmLatch s op addr).progress = s.progress :=
  rfl
@[simp] theorem byteOut_progress (s : State) (addr : Word) (v : Byte) : (byteOut s addr v).progress = s.progress := rfl
@[simp] theorem readNext_progress (s : State) : (readNext s).progress = s.progress := rfl
@[simp] theorem writeNext_progress (s : State) (data : Word) : (writeNext s data).progress = s.progress := by
  simp [writeNext]
@[simp] theorem requestBdm_progress (s : State) : (requestBdm s).progress = s.progress := by
  unfold requestBdm
  split <;> rfl

/-! The writes of the debugger are not remembered as stores of the CPU. -/

@[simp] theorem writeMapTarget_stores (s : State) (g : MapTarget) (v : Byte) :
    (writeMapTarget s g v).stores = s.stores := by
  cases g with
  | user g => exact writeTarget_stores s g v
  | bdm a =>
    simp only [writeMapTarget, writeBdmResource]
    repeat' split
    all_goals rfl
@[simp] theorem write8InMap_stores (s : State) (a : Word) (v : Byte) : (write8InMap s a v).stores = s.stores :=
  writeMapTarget_stores s _ v
@[simp] theorem write16InMap_stores (s : State) (a v : Word) : (write16InMap s a v).stores = s.stores := by
  simp [write16InMap]
@[simp] theorem bdmLatch_stores (s : State) (op : Byte) (addr : Word) : (bdmLatch s op addr).stores = s.stores := rfl
@[simp] theorem byteOut_stores (s : State) (addr : Word) (v : Byte) : (byteOut s addr v).stores = s.stores := rfl
@[simp] theorem readNext_stores (s : State) : (readNext s).stores = s.stores := rfl
@[simp] theorem writeNext_stores (s : State) (data : Word) : (writeNext s data).stores = s.stores := by
  simp [writeNext]
@[simp] theorem requestBdm_stores (s : State) : (requestBdm s).stores = s.stores := by
  unfold requestBdm
  split <;> rfl

/-! ## BDM commands: the invariant -/

/-- What a BDM command leaves: it can end active BDM but not begin it, and it neither ends an instruction in progress nor
stores for the CPU. -/
structure Commanded (s t : State) : Prop where
  coherent : Coherent t
  run : t.run = s.run ∨ s.run = .bdmActive ∧ t.run = .running
  progress : t.progress = s.progress
  stores : t.stores = s.stores

theorem Commanded.of_steady {s t : State} (hs : Coherent s) (h : Steady s t) (hp : t.progress = s.progress)
    (hst : t.stores = s.stores) : Commanded s t :=
  ⟨hs.of_steady h fun hn => hs.progress (hp ▸ hn), .inl h.run_eq, hp, hst⟩

/-- GO, TRACE1 and TAGGO leave BDM from STATUS with TRACE or ENTAG set. -/
theorem leaveBdm_commanded {s : State} (hs : Coherent s) (hr : s.run = .bdmActive) {b : Bdm}
    (hlow : b.status &&& 7 = 0) : Commanded s (leaveBdm { s with bdm := b }) :=
  ⟨⟨hs.wf, hs.page, statusFits_left hlow, fun _ => rfl⟩, .inr ⟨hr, rfl⟩, rfl, rfl⟩

/-- Every state that a command leaves has a property. -/
def Leaves (P : State → Prop) (r : Except Refusal State) : Prop := ∀ t, r = .ok t → P t

theorem leaves_ok {P : State → Prop} {t : State} (h : P t) : Leaves P (.ok t) := by
  rintro _ ⟨⟩
  exact h

theorem leaves_error (P : State → Prop) (r : Refusal) : Leaves P (.error r) := by
  intro t h
  cases h

/-- A command that is chosen by its opcode. -/
theorem Leaves.ite {P : State → Prop} {c : Prop} [Decidable c] {r q : Except Refusal State} (hr : Leaves P r)
    (hq : Leaves P q) : Leaves P (if c then r else q) := by
  split
  · exact hr
  · exact hq

theorem firmwareCommand_commanded {s : State} (hs : Coherent s) (hr : s.run = .bdmActive) (op : Byte) (data : Word) :
    Leaves (Commanded s) (firmwareCommand s op data) := by
  have hlow : s.bdm.status &&& 7 = 0 := hs.status.low
  have go : Commanded s (leaveBdm s) := leaveBdm_commanded hs hr hlow
  have trace1 : Commanded s (leaveBdm (startTrace s)) :=
    leaveBdm_commanded hs hr ((putBit_and _ _ _ (by decide) rfl).trans hlow)
  have taggo : Commanded s (leaveBdm (enableTagging s)) :=
    leaveBdm_commanded hs hr ((putBit_and _ _ _ (by decide) rfl).trans hlow)
  have steady {t : State} (h : Steady s t) (hp : t.progress = s.progress) (hst : t.stores = s.stores) :
      Leaves (Commanded s) (.ok t) := leaves_ok (.of_steady hs h hp hst)
  have setTmp2 : Steady s { setShift s data with tmp2 := data } := (steady_setShift data).2 (.refl s)
  exact .ite (leaves_ok go) <| .ite (leaves_ok trace1) <| .ite (leaves_ok taggo) <|
    .ite (steady (by simp) (by simp) (by simp)) <| .ite (steady setTmp2 rfl rfl) <|
    .ite (steady (by simp) rfl rfl) <| .ite (steady (by simp) rfl rfl) <|
    .ite (steady (by simp) rfl rfl) <| .ite (steady (by simp) rfl rfl) <|
    .ite (steady (by simp) rfl rfl) <| .ite (steady (by simp) rfl rfl) <|
    .ite (steady (by simp) rfl rfl) <| .ite (steady (by simp) rfl rfl) <|
    .ite (steady (by simp) rfl rfl) <| .ite (steady (by simp) rfl rfl) <| leaves_error _ _

theorem runCommand_commanded {s : State} (hs : Coherent s) (op : Byte) (addr data : Word) :
    Leaves (Commanded s) (runCommand s op addr data) := by
  have hardware {t : State} (h : Steady s t) (hp : t.progress = s.progress) (hst : t.stores = s.stores) :
      Leaves (Commanded s) (.ok t) := leaves_ok (.of_steady hs h hp hst)
  have aligned {t : State} (h : Steady s t) (hp : t.progress = s.progress) (hst : t.stores = s.stores) :
      Leaves (Commanded s) (ifAligned addr t) := (leaves_error _ _).ite (hardware h hp hst)
  have named : Coherent { s with bdm := { s.bdm with instr := op } } := ⟨hs.wf, hs.page, hs.status, hs.progress⟩
  have firmware : Leaves (Commanded s) (if s.run = .bdmActive then
      firmwareCommand { s with bdm := { s.bdm with instr := op } } op data else .error .bdmNotActive) := by
    split
    · intro t e
      have h := firmwareCommand_commanded named ‹_› op data t e
      exact ⟨h.coherent, h.run, h.progress, h.stores⟩
    · exact leaves_error _ _
  have request : Steady s (requestBdm { s with bdm := { s.bdm with instr := op } }) :=
    steady_requestBdm ((steady_bdm rfl).2 (.refl s))
  exact .ite (hardware request (by simp) (by simp)) <|
    .ite (hardware (by simp) rfl rfl) <| .ite (hardware (by simp) rfl rfl) <|
    .ite (aligned (by simp) rfl rfl) <| .ite (aligned (by simp) rfl rfl) <|
    .ite (hardware (by simp) (by simp) (by simp)) <| .ite (hardware (by simp) (by simp) (by simp)) <|
    .ite (aligned (by simp) (by simp) (by simp)) <| .ite (aligned (by simp) (by simp) (by simp)) <|
    .ite firmware (leaves_error _ _)

theorem bdmCommand_commanded {s : State} (hs : Coherent s) (op : Byte) (addr data : Word) :
    Leaves (Commanded s) (bdmCommand s op addr data) := by
  have begun : Coherent (beginCommand s) := hs.of_steady (by simp) hs.progress
  refine (leaves_ok ⟨hs, .inl rfl, rfl, rfl⟩).ite fun t e => ?_
  have h := runCommand_commanded begun op addr data t e
  exact ⟨h.coherent, h.run, h.progress, h.stores⟩

/-! ## Reset and events -/

theorem statusFits_reset (s : State) : StatusFits (resetStatus s) .running := by
  have masked (d : Byte) : controlBits (d &&& 0x18) = controlBits 0 := by
    simp only [controlBits, BitVec.and_assoc]
    simp
  have h : controlBits (resetStatus s) = controlBits 0 := (controlBits_enbdm _ _).trans (masked _)
  rw [statusFits_congr h]
  exact ⟨by decide, by decide, rfl⟩

/-- A reset needs well-formed memory alone. -/
theorem takeReset_coherent {s : State} (hm : Memory.wf s.mem = true) (src : ResetSource) :
    Coherent (takeReset s src) := by
  have page (v : Byte) : (pageBits s.cfg.ppageBits v).toNat < 2 ^ s.cfg.ppageBits := pageBits_lt _ v
  simp only [takeReset]
  split
  · refine Coherent.enterBdm ?_ rfl _
    exact ⟨hm, page _, statusFits_reset s, fun _ => rfl⟩
  · exact ⟨hm, page _, statusFits_reset s, fun _ => rfl⟩

theorem arriveEvent_coherent {x y : Arrived} {e : Event} (hx : Coherent x.state) (h : arriveEvent x e = .ok y) :
    Coherent y.state := by
  cases e with
  | command op addr data =>
    cases ht : bdmCommand x.state op addr data with
    | error r => simp [arriveEvent, ht, Except.map] at h
    | ok t =>
      obtain rfl : { x with state := nextDraw t } = y := by simpa [arriveEvent, ht, Except.map] using h
      have hc : Coherent t := (bdmCommand_commanded hx op addr data t ht).coherent
      exact hc.of_steady (steady_nextDraw.2 (.refl t)) hc.progress
  | forceBdm =>
    cases h
    dsimp only
    split
    · exact hx
    · exact hx.of_steady (steady_requestBdm (.refl _)) (by simpa using hx.progress)
  | hostTimeout =>
    cases h
    dsimp only
    split
    · exact hx
    · exact ⟨hx.wf, hx.page, hx.status, hx.progress⟩
  | _ =>
    cases h
    exact ⟨hx.wf, hx.page, hx.status, hx.progress⟩

theorem arriveEvents_coherent {es : List Event} {x y : Arrived} (hx : Coherent x.state)
    (h : arriveEvents es x = .ok y) : Coherent y.state := by
  induction es generalizing x with
  | nil =>
    cases h
    exact hx
  | cons e es ih =>
    unfold arriveEvents at h
    split at h
    · exact ih (arriveEvent_coherent hx ‹_›) h
    · cases h

theorem arrivals_coherent {s : State} {x : Arrived} (hs : Coherent s) (h : arrivals s = .ok x) : Coherent x.state :=
  arriveEvents_coherent (x := ⟨{ s with schedule := s.schedule.tail }, none, [], none⟩)
    ⟨hs.wf, hs.page, hs.status, hs.progress⟩ h

/-! ## Actions: where the boundary chooses them -/

/-- The run state and the instruction in progress that an action stands on. -/
def Ready (s : State) : Action → Prop
  | .enterBdm | .tagged _ | .instr _ _ => s.run = .running ∧ s.progress = .none
  | .interrupt _ _ | .resume => s.run = .running
  | .wakeWaiting => s.run = .waiting
  | .wakeStopped => s.run = .stopped
  | .idle => True

theorem fetchAction_instr {s : State} {a : Action} (h : fetchAction s = .ok a) : ∃ i n, a = .instr i n := by
  unfold fetchAction at h
  split at h
  · split at h
    · cases h
    · cases h
      exact ⟨_, _, rfl⟩
  · cases h

theorem continueAction_ready {s : State} {tags : List TagKind} {a : Action} (hr : s.run = .running)
    (h : continueAction s tags = .ok a) : Ready s a := by
  unfold continueAction at h
  split at h
  · rename_i hp
    split at h
    · cases h
      exact ⟨hr, hp⟩
    · obtain ⟨i, n, rfl⟩ := fetchAction_instr h
      exact ⟨hr, hp⟩
  · cases h
    exact hr

theorem runningAction_ready {s : State} {tags : List TagKind} {a : Action} (hr : s.run = .running)
    (h : runningAction s tags = .ok a) : Ready s a := by
  unfold runningAction at h
  split at h
  · cases h
  · split at h
    · rename_i hb
      cases h
      simp only [Bool.and_eq_true, decide_eq_true_eq] at hb
      obtain ⟨-, hp⟩ := hb
      exact ⟨hr, hp⟩
    · split at h
      · cases h
        exact hr
      · exact continueAction_ready hr h

theorem boundaryAction_ready {s : State} {tags : List TagKind} {a : Action} (h : boundaryAction s tags = .ok a) :
    Ready s a := by
  unfold boundaryAction at h
  split at h
  case h_1 hr => exact runningAction_ready hr h
  case h_2 hr =>
    cases h
    exact hr
  case h_3 hr =>
    cases h
    exact hr
  case h_4 =>
    cases h
    trivial

/-- Every action but idling stands outside active BDM. -/
theorem Ready.ne_bdmActive {s : State} {a : Action} (h : Ready s a) (ha : a ≠ .idle) : s.run ≠ .bdmActive := by
  cases a with
  | idle => exact absurd rfl ha
  | enterBdm | tagged _ | instr _ _ =>
    obtain ⟨hr, -⟩ := h
    simp [hr]
  | interrupt _ _ | resume | wakeWaiting | wakeStopped =>
    have hr : s.run = _ := h
    simp [hr]

/-- A change that keeps the run state and the instruction in progress keeps what an action stands on. -/
theorem Ready.congr {s t : State} {a : Action} (h : Ready s a) (hr : t.run = s.run) (hp : t.progress = s.progress) :
    Ready t a := by
  cases a with
  | idle => trivial
  | _ => simpa only [Ready, hr, hp] using h

/-- So does a BDM command, which changes the run state in active BDM alone. -/
theorem Ready.commanded {s t : State} {a : Action} (h : Ready s a) (hc : Commanded s t) : Ready t a := by
  rcases hc.run with hr | ⟨hr, -⟩
  · exact h.congr hr hc.progress
  · by_cases ha : a = .idle
    · rw [ha]
      trivial
    · exact absurd hr (h.ne_bdmActive ha)

/-! ## Actions: what they leave -/

theorem steady_leaveInstruction (s : State) : Steady s (leaveInstruction s) := by
  unfold leaveInstruction
  rw [steady_finished]
  split
  · exact steady_push16 (steady_push16 (steady_push16 (.refl s) _) _) _
  · exact steady_suspendRules (.refl s)

@[simp] theorem leaveInstruction_progress (s : State) : (leaveInstruction s).progress = .none := rfl

theorem steady_prepare (s : State) (a : Action) : Steady s (prepare s a) := by
  cases a with
  | interrupt v isXirq => exact steady_leaveInstruction s
  | _ => exact Steady.refl s

/-- An interrupt leaves the instruction in progress; no other preparation does, or stores anything. -/
theorem prepare_cases (s : State) (a : Action) :
    (∃ v isXirq, a = .interrupt v isXirq) ∨ (prepare s a).progress = s.progress ∧ (prepare s a).stores = s.stores := by
  cases a with
  | interrupt v isXirq => exact .inl ⟨v, isXirq, rfl⟩
  | _ => exact .inr ⟨rfl, rfl⟩

theorem prepare_coherent {s : State} (hs : Coherent s) (a : Action) : Coherent (prepare s a) := by
  refine hs.of_steady (steady_prepare s a) fun hn => ?_
  rcases prepare_cases s a with ⟨v, isXirq, rfl⟩ | ⟨hp, -⟩
  · exact absurd (leaveInstruction_progress s) hn
  · exact hs.progress (hp ▸ hn)

theorem Ready.prepare {s : State} {a : Action} (h : Ready s a) : Ready (prepare s a) a := by
  rcases prepare_cases s a with ⟨v, isXirq, rfl⟩ | ⟨hp, -⟩
  · exact (steady_leaveInstruction s).run_eq.trans h
  · exact h.congr (steady_prepare s a).run_eq hp

/-- What an action leaves: a state with the invariant that, if BDM is active in it, has stored nothing. -/
structure Settled (s t : State) : Prop where
  coherent : Coherent t
  quiet : t.run = .bdmActive → t.stores = s.stores

theorem Settled.of_ne {s t : State} (ht : Coherent t) (hr : t.run ≠ .bdmActive) : Settled s t :=
  ⟨ht, fun h => absurd h hr⟩

/-- A steady change of a machine that runs. -/
theorem Settled.of_steady {s t : State} (hs : Coherent s) (hr : s.run = .running) (h : Steady s t) : Settled s t :=
  .of_ne (hs.of_steady h fun _ => hr) (by simp [h.run_eq, hr])

theorem Settled.enterBdm {s : State} (hs : Coherent s) (hp : s.progress = .none) (tmp2 : Word) :
    Settled s (enterBdm s tmp2) := ⟨hs.enterBdm hp tmp2, fun _ => enterBdm_stores s tmp2⟩

@[simp] theorem pushFrame_progress (s : State) (rtn : Word) : (pushFrame s rtn).progress = s.progress := by
  rw [onlyStores_pushFrame s rtn]

theorem pushFrame_run (s : State) (rtn : Word) : (pushFrame s rtn).run = s.run :=
  (steady_pushFrame (.refl s) rtn).run_eq

theorem Coherent.pushFrame {s : State} (hs : Coherent s) (rtn : Word) : Coherent (pushFrame s rtn) :=
  hs.of_steady (steady_pushFrame (.refl s) rtn) (by simpa using hs.progress)

/-- A machine that runs no instruction is suspended, as by STOP and WAI with their frame pushed. -/
theorem Settled.suspended {s p : State} (h : Coherent p) (hr : p.run = .running) (hp : p.progress = .none)
    {r : RunState} (hne : r ≠ .bdmActive) : Settled s { p with run := r } :=
  .of_ne ⟨h.wf, h.page, h.status.of_ne (by simp [hr]) hne, fun hn => absurd hp hn⟩ hne

/-- A handler is entered with the masks and the temporaries changed. -/
theorem Settled.handled {s p : State} (h : Coherent p) (hr : p.run ≠ .bdmActive) (ccr : Byte) (pc : Word) :
    Settled s { dropTemporaries p with ccr := ccr, pc := pc, stale := [] } :=
  .of_ne ⟨h.wf, h.page, h.status, h.progress⟩ hr

theorem exec_settled {s : State} (hs : Coherent s) (hr : s.run = .running) (hp : s.progress = .none) (i : Instr) :
    Yields (Settled s) (exec i s) := by
  refine (exec_effect i s).imp fun t h => ?_
  cases h with
  | steady h => exact .of_steady hs hr h
  | suspended r h =>
    have hrun : (pushFrame s s.pc).run = .running := (pushFrame_run s s.pc).trans hr
    have hnone : (pushFrame s s.pc).progress = .none := (pushFrame_progress s s.pc).trans hp
    exact .suspended (hs.pushFrame s.pc) hrun hnone (by rcases h with rfl | rfl <;> nofun)
  | entersBdm tmp2 => exact .enterBdm hs hp tmp2

/-- Every exception, XIRQ too. -/
theorem takeException_settled {s : State} (hs : Coherent s) (hr : s.run = .running) (vector rtn : Word)
    (isXirq : Bool) : Settled s (takeException s vector rtn isXirq) := by
  rw [takeException_eq]
  exact .handled (hs.pushFrame rtn) (by simp [pushFrame_run, hr]) _ _

/-- A handler is entered from the waiting or the stopped state. -/
theorem enterHandler_settled {s : State} (hs : Coherent s) (hr : s.run ≠ .bdmActive) (vector : Word) (isXirq : Bool) :
    Settled s (enterHandler s vector isXirq) := by
  rw [enterHandler_eq]
  exact .of_ne ⟨hs.wf, hs.page, hs.status.of_ne hr nofun, fun _ => rfl⟩ nofun

theorem wakeWaiting_settled {s : State} (hs : Coherent s) (hr : s.run ≠ .bdmActive) : Settled s (wakeWaiting s) := by
  unfold wakeWaiting
  split
  · exact enterHandler_settled hs hr _ _
  · exact .of_ne hs hr

theorem wakeStopped_settled {s : State} (hs : Coherent s) (hr : s.run ≠ .bdmActive) : Settled s (wakeStopped s) := by
  have goesOn : Settled s { drop s 9 with run := .running } :=
    .of_ne ⟨hs.wf, hs.page, hs.status.of_ne hr nofun, fun _ => rfl⟩ nofun
  unfold wakeStopped
  split
  · split
    · exact goesOn
    · exact enterHandler_settled hs hr _ _
  · split
    · exact .of_ne hs hr
    · split
      · exact enterHandler_settled hs hr _ _
      · exact .of_ne hs hr

theorem steady_resume (s : State) : Steady s (resume s) := by
  unfold resume
  split
  · exact steady_runRev (.refl s)
  · exact steady_runRevw (.refl s)
  · exact steady_runWav (.refl s)
  · exact .refl s

theorem runTagged_settled {s : State} (hs : Coherent s) (hr : s.run = .running) (hp : s.progress = .none)
    (k : TagKind) : Settled s (runTagged s k) := by
  cases k with
  | swi => exact takeException_settled hs hr _ _ false
  | bdm | pin => exact .enterBdm hs hp _

theorem act_settled {s : State} {a : Action} (hs : Coherent s) (h : Ready s a) : Yields (Settled s) (act s a) := by
  cases a with
  | instr i n =>
    obtain ⟨hr, hp⟩ := h
    exact exec_settled hs hr hp i
  | enterBdm =>
    obtain ⟨-, hp⟩ := h
    exact yields_next (.enterBdm hs hp _)
  | tagged k =>
    obtain ⟨hr, hp⟩ := h
    exact yields_next (runTagged_settled hs hr hp k)
  | interrupt v isXirq => exact yields_next (takeException_settled hs h v s.pc isXirq)
  | resume => exact yields_next (.of_steady hs h (steady_resume s))
  | wakeWaiting => exact yields_next (wakeWaiting_settled hs (h.ne_bdmActive nofun))
  | wakeStopped => exact yields_next (wakeStopped_settled hs (h.ne_bdmActive nofun))
  | idle => exact yields_next ⟨hs, fun _ => rfl⟩

/-! ## The end of an action -/

theorem noteIDelay_coherent {s : State} (hs : Coherent s) (iWas rti : Bool) : Coherent (noteIDelay iWas rti s) := by
  unfold noteIDelay
  split
  · exact ⟨hs.wf, hs.page, hs.status, hs.progress⟩
  · exact hs

theorem endTrace_coherent {s : State} (hs : Coherent s) : Coherent (endTrace s) := by
  have ended : Coherent { s with bdm := { s.bdm with tracing := false, status := putBit s.bdm.status 3 false } } :=
    hs.of_steady ((steady_bdm (by simp)).2 (.refl s)) hs.progress
  simp only [endTrace]
  split
  · rename_i h
    simp only [Bool.and_eq_true, decide_eq_true_eq] at h
    obtain ⟨⟨-, hp⟩, -⟩ := h
    split
    · exact ended.enterBdm hp _
    · exact ended
  · exact hs

theorem retire_coherent {s : State} (hs : Coherent s) (iWas rti : Bool) : Coherent (retire iWas rti s) :=
  endTrace_coherent (noteIDelay_coherent hs iWas rti)

theorem finish_coherent {t : State} (s : State) (a : Action) (ht : Coherent t) : Coherent (finish s a t) := by
  cases a with
  | instr i n => exact retire_coherent ht s.flagI (isRti i)
  | resume => exact retire_coherent ht s.flagI false
  | tagged k =>
    cases k with
    | swi => exact retire_coherent ht s.flagI false
    | bdm | pin => exact endTrace_coherent ht
  | enterBdm | wakeWaiting | wakeStopped => exact endTrace_coherent ht
  | interrupt _ _ | idle => exact ht

/-! ## A BDM command inside an action -/

theorem applyStores_coherent {s : State} (hs : Coherent s) (es : List Store) : Coherent (applyStores s es) := by
  have hp : (applyStores s es).progress = s.progress := by rw [onlyStores_applyStores s es]
  exact hs.of_steady (steady_applyStores (.refl s) es) fun hn => hs.progress (hp ▸ hn)

@[simp] theorem applyStores_run (s : State) (es : List Store) : (applyStores s es).run = s.run :=
  (steady_applyStores (.refl s) es).run_eq

/-- A command among the stores of an action: memory and the page registers are those that the command and the stores
after it leave, and the BDM registers are the command's only where the action has stored something. -/
theorem commandAmong_ok {s t u : State} {b : Bool} {c : Command} {n : Nat} (h : commandAmong s t b c n = .ok u) :
    ∃ p v w st, p = applyStores s (t.stores.reverse.take n) ∧
      bdmCommand { p with pc := t.pc, stale := [] } c.op c.addr c.data = .ok v ∧ Steady v w ∧
      u = { t with mem := w.mem, ppage := w.ppage, dpage := w.dpage, epage := w.epage, stale := st,
                   bdm := if t.stores.reverse.isEmpty then t.bdm else v.bdm } := by
  unfold commandAmong at h
  dsimp only at h
  generalize hp : applyStores s (t.stores.reverse.take n) = p at h
  cases e : bdmCommand { p with pc := t.pc, stale := [] } c.op c.addr c.data with
  | error r =>
    rw [e] at h
    simp [Except.map] at h
  | ok v =>
    rw [e] at h
    simp only [Except.map, Except.ok.injEq] at h
    subst h
    have hw : Steady v { v with pc := s.pc, stale := p.stale } := .refl v
    exact ⟨p, v, _, _, rfl, e, steady_applyStores hw _, rfl⟩

/-- It keeps the invariant where an action that has stored something neither leaves nor enters active BDM. -/
theorem commandAmong_coherent {s t u : State} {b : Bool} {c : Command} {n : Nat} (hs : Coherent s) (ht : Coherent t)
    (hcfg : t.cfg = s.cfg) (hne : t.stores ≠ [] → s.run ≠ .bdmActive ∧ t.run ≠ .bdmActive)
    (h : commandAmong s t b c n = .ok u) : Coherent u ∧ u.run = t.run ∧ u.progress = t.progress := by
  obtain ⟨p, v, w, st, hp, hv, hw, rfl⟩ := commandAmong_ok h
  have hpc : Coherent p := by
    rw [hp]
    exact applyStores_coherent hs _
  have hpcfg : p.cfg = s.cfg := by rw [hp, applyStores_cfg]
  have hprun : p.run = s.run := by rw [hp, applyStores_run]
  clear hp
  have hqc : Coherent { p with pc := t.pc, stale := [] } := ⟨hpc.wf, hpc.page, hpc.status, hpc.progress⟩
  have hvc : Commanded { p with pc := t.pc, stale := [] } v :=
    bdmCommand_commanded hqc c.op c.addr c.data v hv
  have hvcfg : v.cfg = p.cfg :=
    bdmCommand_leavesParameters { p with pc := t.pc, stale := [] } c.op c.addr c.data v hv
  obtain ⟨-, hwcfg, -, hwm, hwp, -⟩ := hw
  have page : w.ppage.toNat < 2 ^ w.cfg.ppageBits := hwp hvc.coherent.page
  rw [hwcfg, hvcfg, hpcfg, ← hcfg] at page
  refine ⟨⟨hwm hvc.coherent.wf, page, ?_, ht.progress⟩, rfl, rfl⟩
  dsimp only
  split
  · exact ht.status
  · rename_i hes
    obtain ⟨hsr, htr⟩ := hne (by simpa using hes)
    rcases hvc.run with hr | ⟨hr, -⟩
    · exact hvc.coherent.status.of_ne (fun e => hsr (hprun.symm.trans (hr.symm.trans e))) htr
    · exact absurd (hprun.symm.trans hr) hsr

/-- An action that starts with no store remembered and has made one stands outside active BDM, and has not entered it. -/
theorem act_ne_bdmActive {s q t : State} {a : Action} (hs : Ready s a) (hq : q.stores = []) (h : act q a = .next t)
    (ht : Settled q t) (hne : t.stores ≠ []) : s.run ≠ .bdmActive ∧ t.run ≠ .bdmActive := by
  have htr : t.run ≠ .bdmActive := fun hr => hne ((ht.quiet hr).trans hq)
  refine ⟨hs.ne_bdmActive ?_, htr⟩
  rintro rfl
  cases h
  exact hne hq

/-- Fields that the invariant does not read. -/
theorem Coherent.withReads {s : State} (hs : Coherent s) (e : Option Earlier) (st : List Slot) :
    Coherent { s with earlier := e, stale := st } := ⟨hs.wf, hs.page, hs.status, hs.progress⟩

theorem commandWithin_coherent {s : State} {a : Action} (hs : Coherent s) (h : Ready s a) (hst : s.stores = [])
    (c : Command) (reads n : Nat) : Yields Coherent (commandWithin (fun q => act q a) s c reads n) := by
  intro u hu
  obtain ⟨q, t, hq, ht⟩ := commandWithin_next hu
  have hqc : Commanded s q := bdmCommand_commanded hs _ _ _ q hq
  have hcfg : q.cfg = s.cfg := bdmCommand_leavesParameters s _ _ _ q hq
  have settled (e : Option Earlier) (st : List Slot) : Yields (Settled { q with earlier := e, stale := st })
      (act { q with earlier := e, stale := st } a) :=
    act_settled (hqc.coherent.withReads e st) ((h.commanded hqc).congr rfl rfl)
  rcases ht with ⟨ht, rfl⟩ | ⟨ht, hu⟩
  · exact (settled _ q.stale t ht).coherent.withReads none t.stale
  · have hset := settled _ _ t ht
    have hne : t.stores ≠ [] → s.run ≠ .bdmActive ∧ t.run ≠ .bdmActive :=
      act_ne_bdmActive h (q := { q with earlier := _, stale := flowMark }) (hqc.stores.trans hst) ht hset
    have htcfg : t.cfg = s.cfg := (act_keepsParameters _ a t ht).trans hcfg
    obtain ⟨hu, -, -⟩ := commandAmong_coherent hs (hset.coherent.withReads none t.stale) htcfg hne hu
    exact hu

/-- Only an interrupt stores before its action proper, and it is taken where the machine runs. -/
theorem prepare_ne_bdmActive {s : State} {a : Action} (h : Ready s a) (hst : s.stores = [])
    (hne : (prepare s a).stores ≠ []) : s.run ≠ .bdmActive ∧ (prepare s a).run ≠ .bdmActive := by
  rcases prepare_cases s a with ⟨v, isXirq, rfl⟩ | ⟨-, hp⟩
  · exact ⟨h.ne_bdmActive nofun, h.prepare.ne_bdmActive nofun⟩
  · exact absurd (hp.trans hst) hne

theorem actWithCommand_coherent {s : State} {a : Action} (hs : Coherent s) (h : Ready s a) (cut : Cut) (c : Command) :
    Yields Coherent (actWithCommand s a cut c) := by
  intro u hu
  simp only [actWithCommand] at hu
  have hsc : Coherent { s with stores := [], budget := some 1 } := ⟨hs.wf, hs.page, hs.status, hs.progress⟩
  have hsr : Ready { s with stores := [], budget := some 1 } a := h.congr rfl rfl
  have hne := prepare_ne_bdmActive hsr rfl
  have hcfg := prepare_cfg { s with stores := [], budget := some 1 } a
  have hpc := prepare_coherent hsc a
  have hpr := hsr.prepare
  generalize prepare { s with stores := [], budget := some 1 } a = p at *
  split at hu
  · split at hu
    · rename_i q hq
      obtain ⟨hqc, hr, hp⟩ := commandAmong_coherent hsc hpc hcfg hne hq
      exact (act_settled hqc (hpr.congr hr hp) u hu).coherent
    · cases hu
  · have hqc : Coherent { p with stores := [] } := ⟨hpc.wf, hpc.page, hpc.status, hpc.progress⟩
    exact commandWithin_coherent hqc (hpr.congr rfl rfl) rfl c _ _ u hu

/-! ## The step -/

theorem boundary_coherent {s : State} (hs : Coherent s) (tags : List TagKind) : Yields Coherent (boundary s tags) := by
  intro t h
  obtain ⟨a, u, ha, hu, rfl⟩ := boundary_next.1 h
  exact finish_coherent s a (act_settled (prepare_coherent hs a) (boundaryAction_ready ha).prepare u hu).coherent

theorem boundaryWithCommand_coherent {s : State} (hs : Coherent s) (tags : List TagKind) (cut : Cut) (c : Command) :
    Yields Coherent (boundaryWithCommand s tags cut c) := by
  intro t h
  obtain ⟨a, u, ha, hu, rfl⟩ := boundaryWithCommand_next.1 h
  exact finish_coherent s a (actWithCommand_coherent hs (boundaryAction_ready ha) cut c u hu)

theorem resetWithin_coherent {s : State} (hs : Coherent s) (tags : List TagKind) (n : Nat) (src : ResetSource) :
    Coherent (resetWithin s tags n src) :=
  takeReset_coherent (s := { s with mem := (applyStores s _).mem }) (Memory.wf_applyStores hs.wf _) src

theorem stepAt_coherent {s : State} (hs : Coherent s) (tags : List TagKind) (w : Option Within) :
    Yields Coherent (stepAt s tags w) := by
  rcases w with _ | ⟨cut, c⟩ | ⟨n, src⟩
  case none => exact boundary_coherent hs tags
  case some.command => exact boundaryWithCommand_coherent hs tags cut c
  case some.reset => exact yields_next (resetWithin_coherent hs tags n src)

/-- The end of a step forgets stores and early reads, which makes the invariant whole. -/
theorem inv_closeStep {s : State} (hs : Coherent s) : Inv (closeStep s) :=
  (inv_iff _).2 ⟨⟨hs.wf, hs.page, hs.status, hs.progress⟩, rfl, rfl⟩

/-- Every next state of a step has the invariant: after a reset, or after what the boundary does. -/
theorem step_inv {s : State} (hs : Inv s) : Yields Inv (step s) := by
  obtain ⟨hc, -, -⟩ := (inv_iff s).1 hs
  unfold step oneStep
  split
  · exact yields_refused _ _
  · rename_i x hx
    have hxc : Coherent x.state := arrivals_coherent hc hx
    split
    · exact yields_next (inv_closeStep (takeReset_coherent hxc.wf _))
    · intro t h
      obtain ⟨u, hu, rfl⟩ := mapNext_next.1 h
      exact inv_closeStep (stepAt_coherent hxc x.tags x.within u hu)

/-- Settles O6: events, a reset and every action keep the invariant but for what the end of the step empties. -/
theorem everyStepKeepsTheInvariant : Obligations.EveryStepKeepsTheInvariant := by
  unfold Obligations.EveryStepKeepsTheInvariant
  exact fun s t hs h => step_inv hs t h

end Sys2Proof.Machine
end

section
/-! PROOF. What writes through the map leave unchanged, in the terms of the statements, and what reads give. -/

namespace Sys2Proof.Machine

/-! ## One write to a target: what stays -/

/-- Page registers, as targets. -/
def Target.isPage (g : Target) : Prop := g = .ppage ∨ g = .dpage ∨ g = .epage

theorem isPageRegister_iff (s : State) (a : Word) : isPageRegister s a ↔ (locate s a).isPage := .rfl

section
variable {s t : State} {g : Target}

/-- A storage byte other than the one written. -/
theorem memGet_writeTarget_of_ne {k : Nat} (h : g ≠ .cell k true) (v : Byte) :
    memGet (writeTarget s g v).mem k = memGet s.mem k := by
  rw [writeTarget_mem]
  rcases g with ⟨j, _ | _⟩ | _ | _ | _ | _ | _
  case cell.true => exact memGet_memSet_other _ v fun e => h (by rw [e])
  all_goals rfl

theorem writeTarget_ppage_of_ne (h : g ≠ .ppage) (v : Byte) : (writeTarget s g v).ppage = s.ppage := by
  obtain ⟨st, e⟩ := writeTarget_eq s g v
  rw [e]
  cases g with
  | ppage => exact absurd rfl h
  | _ => rfl

theorem writeTarget_dpage_of_ne (h : g ≠ .dpage) (v : Byte) : (writeTarget s g v).dpage = s.dpage := by
  obtain ⟨st, e⟩ := writeTarget_eq s g v
  rw [e]
  cases g with
  | dpage => exact absurd rfl h
  | _ => rfl

theorem writeTarget_epage_of_ne (h : g ≠ .epage) (v : Byte) : (writeTarget s g v).epage = s.epage := by
  obtain ⟨st, e⟩ := writeTarget_eq s g v
  rw [e]
  cases g with
  | epage => exact absurd rfl h
  | _ => rfl

@[simp] theorem writeTarget_ppage_same (s : State) (v : Byte) :
    (writeTarget s .ppage v).ppage = pageBits s.cfg.ppageBits v := by
  obtain ⟨st, e⟩ := writeTarget_eq s .ppage v
  rw [e]

@[simp] theorem writeTarget_dpage_same (s : State) (v : Byte) : (writeTarget s .dpage v).dpage = v := by
  obtain ⟨st, e⟩ := writeTarget_eq s .dpage v
  rw [e]

@[simp] theorem writeTarget_epage_same (s : State) (v : Byte) : (writeTarget s .epage v).epage = v := by
  obtain ⟨st, e⟩ := writeTarget_eq s .epage v
  rw [e]

/-- A write that reaches no page register leaves the map as it was. -/
theorem locate_writeTarget (h : ¬ g.isPage) (v : Byte) (x : Word) : locate (writeTarget s g v) x = locate s x := by
  simp only [Target.isPage, not_or] at h
  obtain ⟨hp, hd, he⟩ := h
  exact locate_congr (writeTarget_cfg s g v) (writeTarget_windows s g v) (writeTarget_ppage_of_ne hp v)
    (writeTarget_dpage_of_ne hd v) (writeTarget_epage_of_ne he v) x

/-- It changes no read but at the byte that it writes. -/
theorem byteAt_writeTarget_of_ne (h : ¬ g.isPage) {x : Word} (hx : ∀ k, g = .cell k true → slotAt s x ≠ .cell k)
    (v : Byte) : byteAt (writeTarget s g v) x = byteAt s x := by
  rw [byteAt, byteAt, locate_writeTarget h]
  simp only [Target.isPage, not_or] at h
  obtain ⟨hp, hd, he⟩ := h
  cases hl : locate s x with
  | cell k w =>
    have hne : g ≠ .cell k true := fun e => hx k e (by rw [slotAt, hl])
    exact congrArg some (memGet_writeTarget_of_ne hne v)
  | ppage => exact congrArg some (writeTarget_ppage_of_ne hp v)
  | dpage => exact congrArg some (writeTarget_dpage_of_ne hd v)
  | epage => exact congrArg some (writeTarget_epage_of_ne he v)
  | device | nothing => rfl

/-! ## Stores to a list of addresses -/

theorem slotAt_of_cell {a : Word} {k : Nat} {w : Bool} (h : locate s a = .cell k w) : slotAt s a = .cell k := by
  rw [slotAt, h]

theorem StoresOnly.refl (s : State) : StoresOnly s s [] :=
  ⟨fun _ _ => rfl, fun _ => rfl, fun _ => rfl, fun _ => rfl, fun _ _ _ => rfl⟩

/-- Until a page register is written the map is that of the start. -/
theorem StoresOnly.locate_eq {as : List Word} (h : StoresOnly s t as) (hc : t.cfg = s.cfg)
    (hw : t.windows = s.windows) (hn : ∀ a ∈ as, ¬ isPageRegister s a) (x : Word) : locate t x = locate s x := by
  obtain ⟨-, hp, hd, he, -⟩ := h
  simp only [isPageRegister, not_or, imp_and, forall_and] at hn
  obtain ⟨hnp, hnd, hne⟩ := hn
  exact locate_congr hc hw (hp hnp) (hd hnd) (he hne) x

/-- One more store, at an address located in the map of the start. -/
theorem StoresOnly.writeTarget {as : List Word} (h : StoresOnly s t as) (hc : t.cfg = s.cfg)
    (hw : t.windows = s.windows) (a : Word) (v : Byte) :
    StoresOnly s (writeTarget t (locate s a) v) (as ++ [a]) := by
  have hloc := h.locate_eq hc hw
  obtain ⟨hm, hp, hd, he, hb⟩ := h
  simp only [StoresOnly, List.forall_mem_append, List.forall_mem_singleton]
  refine ⟨fun k ⟨hk, ha⟩ => ?_, fun ⟨hq, ha⟩ => ?_, fun ⟨hq, ha⟩ => ?_, fun ⟨hq, ha⟩ => ?_, fun ⟨hn, ha⟩ x ⟨hx, hxa⟩ => ?_⟩
  · exact (memGet_writeTarget_of_ne ha v).trans (hm k hk)
  · exact (writeTarget_ppage_of_ne ha v).trans (hp hq)
  · exact (writeTarget_dpage_of_ne ha v).trans (hd hq)
  · exact (writeTarget_epage_of_ne ha v).trans (he hq)
  · have hslot : slotAt t x = slotAt s x := by rw [slotAt, slotAt, hloc hn]
    have hfree (k : Nat) (e : locate s a = .cell k true) : slotAt t x ≠ .cell k := by
      rw [hslot, ← slotAt_of_cell e]
      exact hxa
    exact (byteAt_writeTarget_of_ne ha hfree v).trans (hb hn x hx)

/-- A byte write changes the byte at its address alone. -/
theorem storesOnly_write8 (s : State) (a : Word) (v : Byte) : StoresOnly s (write8 s a v) [a] :=
  (StoresOnly.refl s).writeTarget rfl rfl a v

/-- A word write changes the bytes at its two addresses alone. -/
theorem storesOnly_write16 (s : State) (a v : Word) : StoresOnly s (write16 s a v) [a, a + 1] :=
  ((StoresOnly.refl s).writeTarget rfl rfl a (hiByte v)).writeTarget (writeTarget_cfg _ _ _)
    (writeTarget_windows _ _ _) (a + 1) (loByte v)

/-! ## What is stored reads back -/

/-- Storage that is written reads as what was written. -/
theorem byteAt_writeTarget_same {a : Word} {k : Nat} (h : locate s a = .cell k true) (v : Byte) :
    byteAt (writeTarget s (.cell k true) v) a = some v := by
  rw [byteAt, locate_writeTarget (by simp [Target.isPage]), h]
  exact targetByte_writeTarget_same v

theorem stored_write8 (s : State) (a : Word) (v : Byte) : Stored s (write8 s a v) a v := by
  intro k h
  rw [write8, h]
  exact byteAt_writeTarget_same h v

/-- The low byte is written last, so it always reads back; the high one where the low one is another byte. -/
theorem storedWord_write16 (s : State) (a v : Word) : StoredWord s (write16 s a v) a v := by
  intro hpa hpb
  rw [isPageRegister_iff] at hpa hpb
  have hhi : BitVec.ofNat 8 (v.toNat / 256) = hiByte v := (hiByte_eq v).symm
  have hlo : BitVec.ofNat 8 (v.toNat % 256) = loByte v := by
    apply BitVec.eq_of_toNat_eq
    rw [toNat_loByte, BitVec.toNat_ofNat]
    omega
  have hmap (x : Word) : locate (write8 s a (hiByte v)) x = locate s x := locate_writeTarget hpa _ x
  rw [hhi, hlo]
  constructor
  · intro hne k h
    have hslot (j : Nat) (e : locate s (a + 1) = .cell j true) : slotAt (write8 s a (hiByte v)) a ≠ .cell j := by
      rw [slotAt_of_cell ((hmap a).trans h), ← slotAt_of_cell h, ← slotAt_of_cell e]
      exact hne.symm
    exact (byteAt_writeTarget_of_ne hpb hslot _).trans (stored_write8 s a _ k h)
  · intro k h
    rw [write16, h]
    exact byteAt_writeTarget_same ((hmap (a + 1)).trans h) _

end

/-! ## Reads -/

/-- A word read as a number, high byte first (20_memory.md R61). -/
theorem toNat_read16 (s : State) (d : Draw) (a : Word) :
    (read16 s d a).toNat = 256 * (read8 s d a).toNat + (read8 s d (a + 1)).toNat := by
  rw [read16, toNat_joinBytes, Nat.mul_comm]

/-- Settles O18: reads go by `byteAt`, and a word write is two writes to targets located in the map of the start. -/
theorem memoryReadsBackWhatIsStored : Obligations.MemoryReadsBackWhatIsStored := by
  unfold Obligations.MemoryReadsBackWhatIsStored
  refine ⟨fun s d a h => ⟨fun v hv => ?_, fun hv => ?_⟩, fun s a => ?_, toNat_read16,
    fun s a v => ⟨stored_write8 s a v, storesOnly_write8 s a v⟩,
    fun s a v => ⟨storedWord_write16 s a v, storesOnly_write16 s a v⟩, fun s a v => ?_, fun s a v => ?_⟩
  · rw [read8_none h, hv, Option.getD_some]
  · rw [read8_none h, hv, Option.getD_none]
  · rw [byteAt]
    cases locate s a <;> rfl
  · rw [store8, logStore, write8_stores]
  · rw [store16, logStore, write16_stores]

end Sys2Proof.Machine
end

section
/-! PROOF. The memory map: precedence, the windows, external memory, and writes to page registers. -/

namespace Sys2Proof.Machine

/-! ## On-chip resources (20_memory.md R72) -/

theorem regionAt_cons_of_not {r : Region} {a : Word} (h : ¬ (r.first ≤ a ∧ a ≤ r.last)) (rs : List Region) :
    regionAt (r :: rs) a = regionAt rs a := if_neg h

/-- Where the first region of the map holds the address, it or a later one of higher precedence is reached. -/
theorem regionAt_cons_of_holds {r : Region} {a : Word} (h : r.first ≤ a ∧ a ≤ r.last) (rs : List Region) :
    (regionAt (r :: rs) a = some r ∧ ∀ q, regionAt rs a = some q → precedence r.res ≤ precedence q.res) ∨
    ∃ q, regionAt (r :: rs) a = some q ∧ regionAt rs a = some q ∧ precedence q.res < precedence r.res := by
  simp only [regionAt, if_pos h]
  cases regionAt rs a with
  | none => exact .inl ⟨rfl, nofun⟩
  | some q =>
    by_cases hlt : precedence q.res < precedence r.res
    · exact .inr ⟨q, if_pos hlt, rfl, hlt⟩
    · refine .inl ⟨if_neg hlt, fun p hp => ?_⟩
      cases hp
      exact Nat.le_of_not_lt hlt

/-- No region is reached where none holds the address, and only there. -/
theorem regionAt_eq_none_iff (rs : List Region) (a : Word) :
    regionAt rs a = none ↔ ∀ r ∈ rs, ¬ (r.first ≤ a ∧ a ≤ r.last) := by
  induction rs with
  | nil => exact iff_of_true rfl nofun
  | cons r rs ih =>
    rw [List.forall_mem_cons]
    by_cases h : r.first ≤ a ∧ a ≤ r.last
    · have hsome : regionAt (r :: rs) a ≠ none := by
        obtain ⟨e, -⟩ | ⟨q, e, -, -⟩ := regionAt_cons_of_holds h rs <;> simp [e]
      exact iff_of_false hsome fun hn => hn.1 h
    · rw [regionAt_cons_of_not h, ih, and_iff_right h]

/-- The region that is reached is in the map, holds the address, and none that holds it has a higher precedence. -/
theorem regionAt_spec {rs : List Region} {a : Word} {r : Region} (h : regionAt rs a = some r) :
    (r ∈ rs ∧ r.first ≤ a ∧ a ≤ r.last) ∧
    ∀ q ∈ rs, q.first ≤ a → a ≤ q.last → precedence r.res ≤ precedence q.res := by
  induction rs generalizing r with
  | nil => cases h
  | cons p rs ih =>
    by_cases hp : p.first ≤ a ∧ a ≤ p.last
    · obtain ⟨e, hle⟩ | ⟨q, e, hq, hlt⟩ := regionAt_cons_of_holds hp rs
      · cases h.symm.trans e
        refine ⟨⟨List.mem_cons_self, hp⟩, List.forall_mem_cons.2 ⟨fun _ _ => le_rfl, fun q hq h1 h2 => ?_⟩⟩
        cases hr : regionAt rs a with
        | none => exact absurd ⟨h1, h2⟩ ((regionAt_eq_none_iff rs a).1 hr q hq)
        | some t => exact (hle t hr).trans ((ih hr).2 q hq h1 h2)
      · cases h.symm.trans e
        obtain ⟨⟨hmem, hin⟩, hmin⟩ := ih hq
        exact ⟨⟨List.mem_cons_of_mem p hmem, hin⟩, List.forall_mem_cons.2 ⟨fun _ _ => hlt.le, hmin⟩⟩
    · rw [regionAt_cons_of_not hp] at h
      obtain ⟨⟨hmem, hin⟩, hmin⟩ := ih h
      exact ⟨⟨List.mem_cons_of_mem p hmem, hin⟩, List.forall_mem_cons.2 ⟨fun h1 h2 => absurd ⟨h1, h2⟩ hp, hmin⟩⟩

/-- Storage is numbered from the origin of its region. -/
theorem onChipKey_eq {r : Region} {a : Word} (h : r.first ≤ a) :
    onChipKey r a = (r.origin.toNat + (a.toNat - r.first.toNat)) % 65536 := by
  rw [onChipKey, BitVec.toNat_add, BitVec.toNat_sub_of_le h]

theorem hasDataWindows_iff (c : Config) : hasDataWindows c = true ↔ c.variant = .m68hc12 ∧ c.dataWindows = true := by
  rw [hasDataWindows, Bool.and_eq_true, beq_iff_eq, and_comm]

section
variable {s : State} {a : Word}

theorem locate_of_region {r : Region} (h : regionAt s.cfg.map a = some r) : locate s a = regionTarget s r a := by
  rw [locate, h]

/-- What each class of resource is reached as. -/
theorem locate_of_resource {r : Region} (h : regionAt s.cfg.map a = some r) :
    let key := (r.origin.toNat + (a.toNat - r.first.toNat)) % 65536
    (r.res = .ram ∨ r.res = .eeprom → locate s a = .cell key true) ∧
    (r.res = .flash → locate s a = .cell key false) ∧ (r.res = .device → locate s a = .device) ∧
    (∀ w, r.res = .vectors w → locate s a = .cell key w) ∧
    (r.res = .ppageReg → locate s a = if s.cfg.ppageBits = 0 then .nothing else .ppage) ∧
    (s.cfg.variant = .m68hc12 → s.cfg.dataWindows = true → (r.res = .dpageReg → locate s a = .dpage) ∧
      (r.res = .epageReg → locate s a = .epage)) := by
  intro key
  obtain ⟨⟨-, hfirst, -⟩, -⟩ := regionAt_spec h
  rw [locate_of_region h, ← show onChipKey r a = key from onChipKey_eq hfirst]
  refine ⟨?_, fun e => ?_, fun e => ?_, fun w e => ?_, fun e => ?_, fun hv hw => ?_⟩
  · rintro (e | e) <;> rw [regionTarget, e]
  · rw [regionTarget, e]
  · rw [regionTarget, e]
  · rw [regionTarget, e]
  · rw [regionTarget, e]
  · have hd : hasDataWindows s.cfg = true := (hasDataWindows_iff s.cfg).2 ⟨hv, hw⟩
    exact ⟨fun e => by rw [regionTarget, e]; exact if_pos hd, fun e => by rw [regionTarget, e]; exact if_pos hd⟩

/-! ## External memory (R78, R79) -/

/-- A block of external memory answers an access at CPU address `a` through the window `p` with external address `x`. -/
abbrev BlockAnswers (e : ExternalBlock) (p : Path) (a : Word) (x : Nat) : Prop :=
  (e.cpuFirst ≤ a ∧ a ≤ e.cpuLast) ∧ p ∈ e.paths ∧ (e.first ≤ x ∧ x ≤ e.last)

/-- The block that is reached is the first that answers. -/
theorem externalAt_eq_find? (es : List ExternalBlock) (p : Path) (a : Word) (x : Nat) :
    externalAt es p a x = es.find? fun e => decide (BlockAnswers e p a x) := by
  induction es with
  | nil => rfl
  | cons e es ih =>
    by_cases h : BlockAnswers e p a x
    · rw [List.find?_cons_of_pos (by simpa using h)]
      exact if_pos h
    · rw [List.find?_cons_of_neg (by simpa using h), ← ih]
      exact if_neg h

theorem externalBlockAt_isSome_iff (s : State) (a : Word) : (externalBlockAt s a).isSome = true ↔
    ∃ e ∈ s.cfg.external, BlockAnswers e (pathOf s a) a (externalAddress s a) := by
  simp only [externalBlockAt, externalAt_eq_find?, List.find?_isSome, decide_eq_true_eq]

theorem externalBlockAt_spec {e : ExternalBlock} (h : externalBlockAt s a = some e) :
    e ∈ s.cfg.external ∧ BlockAnswers e (pathOf s a) a (externalAddress s a) := by
  rw [externalBlockAt, externalAt_eq_find?] at h
  have hfound := List.find?_some h
  exact ⟨List.mem_of_find?_eq_some h, of_decide_eq_true hfound⟩

/-- Where no on-chip resource holds the address, the block of external memory that answers is reached. -/
theorem locate_of_external {e : ExternalBlock} (hr : ∀ r ∈ s.cfg.map, ¬ (r.first ≤ a ∧ a ≤ r.last))
    (h : externalBlockAt s a = some e) :
    locate s a = .cell (0x10000 + e.origin + (externalAddress s a - e.first)) e.writable := by
  simp only [locate, (regionAt_eq_none_iff _ _).2 hr, h, externalKey]

/-- Where none answers, nothing is reached. -/
theorem locate_of_no_resource (hr : ∀ r ∈ s.cfg.map, ¬ (r.first ≤ a ∧ a ≤ r.last))
    (he : ∀ e ∈ s.cfg.external, ¬ BlockAnswers e (pathOf s a) a (externalAddress s a)) : locate s a = .nothing := by
  have hnone : externalBlockAt s a = none := by
    rw [← Option.not_isSome_iff_eq_none, externalBlockAt_isSome_iff]
    rintro ⟨e, hmem, h⟩
    exact he e hmem h
  rw [locate, (regionAt_eq_none_iff _ _).2 hr, hnone]

/-! ## The windows (R75 to R77) -/

/-- In the program window, enabled. -/
def InProgramWindow (s : State) (n : Nat) : Prop := s.windows.pwen = true ∧ 0x8000 ≤ n ∧ n ≤ 0xBFFF

/-- In the data window, enabled, on a device that has it. -/
def InDataWindow (s : State) (n : Nat) : Prop :=
  (s.cfg.variant = .m68hc12 ∧ s.cfg.dataWindows = true) ∧ s.windows.dwen = true ∧ 0x7000 ≤ n ∧ n ≤ 0x7FFF

/-- In the extra window, enabled, on a device that has it. -/
def InExtraWindow (s : State) (n : Nat) : Prop :=
  (s.cfg.variant = .m68hc12 ∧ s.cfg.dataWindows = true) ∧ s.windows.ewen = true ∧
    (n ≤ 0x03FF ∧ s.windows.ewdir = true ∨ 0x0400 ≤ n ∧ n ≤ 0x07FF ∧ s.windows.ewdir = false)

/-- The window of an address, in the terms above. -/
theorem pathOf_cases (s : State) (a : Word) :
    (0 < s.cfg.ppageBits ∧ InProgramWindow s a.toNat ∧ pathOf s a = .program) ∨
    (InDataWindow s a.toNat ∧ pathOf s a = .data) ∨ (InExtraWindow s a.toNat ∧ pathOf s a = .extra) ∨
    (¬ (0 < s.cfg.ppageBits ∧ InProgramWindow s a.toNat) ∧ ¬ InDataWindow s a.toNat ∧ ¬ InExtraWindow s a.toNat ∧
      pathOf s a = .unpaged) := by
  have hp : InProgramWindow s a.toNat ↔ s.windows.pwen = true ∧ 0x8000 ≤ a.toNat ∧ a.toNat < 0xC000 := by
    rw [InProgramWindow, Nat.lt_succ_iff]
  have hd : InDataWindow s a.toNat ↔
      hasDataWindows s.cfg = true ∧ s.windows.dwen = true ∧ 0x7000 ≤ a.toNat ∧ a.toNat < 0x8000 := by
    rw [InDataWindow, hasDataWindows_iff, Nat.lt_succ_iff]
  have he : InExtraWindow s a.toNat ↔ hasDataWindows s.cfg = true ∧ s.windows.ewen = true ∧
      (a.toNat < 0x0400 ∧ s.windows.ewdir = true ∨
        0x0400 ≤ a.toNat ∧ a.toNat < 0x0800 ∧ (!s.windows.ewdir) = true) := by
    rw [InExtraWindow, hasDataWindows_iff, Nat.lt_succ_iff, Nat.lt_succ_iff, Bool.not_eq_true']
  rw [hp, hd, he]
  simp only [pathOf]
  split_ifs with h1 h2 h3
  · exact .inl ⟨h1.1, h1.2, rfl⟩
  · exact .inr (.inl ⟨h2, rfl⟩)
  · exact .inr (.inr (.inl ⟨h3, rfl⟩))
  · exact .inr (.inr (.inr ⟨h1, h2, h3, rfl⟩))

/-- No address is in two windows. -/
theorem windows_disjoint (s : State) (n : Nat) : ¬ (InProgramWindow s n ∧ InDataWindow s n) ∧
    ¬ (InProgramWindow s n ∧ InExtraWindow s n) ∧ ¬ (InDataWindow s n ∧ InExtraWindow s n) := by
  unfold InProgramWindow InDataWindow InExtraWindow
  omega

/-- The path of an access is that of the window it is in. -/
theorem pathOf_iff (s : State) (a : Word) :
    (pathOf s a = .program ↔ 0 < s.cfg.ppageBits ∧ InProgramWindow s a.toNat) ∧
    (pathOf s a = .data ↔ InDataWindow s a.toNat) ∧ (pathOf s a = .extra ↔ InExtraWindow s a.toNat) := by
  obtain ⟨hpd, hpe, hde⟩ := windows_disjoint s a.toNat
  obtain ⟨hb, hp, e⟩ | ⟨hd, e⟩ | ⟨he, e⟩ | ⟨hp, hd, he, e⟩ := pathOf_cases s a <;> rw [e]
  · exact ⟨iff_of_true rfl ⟨hb, hp⟩, iff_of_false nofun fun hd => hpd ⟨hp, hd⟩, iff_of_false nofun fun he => hpe ⟨hp, he⟩⟩
  · exact ⟨iff_of_false nofun fun ⟨_, hp⟩ => hpd ⟨hp, hd⟩, iff_of_true rfl hd, iff_of_false nofun fun he => hde ⟨hd, he⟩⟩
  · exact ⟨iff_of_false nofun fun ⟨_, hp⟩ => hpe ⟨hp, he⟩, iff_of_false nofun fun hd => hde ⟨hd, he⟩, iff_of_true rfl he⟩
  · exact ⟨iff_of_false nofun hp, iff_of_false nofun hd, iff_of_false nofun he⟩

theorem pathOf_unpaged (hp : ¬ InProgramWindow s a.toNat) (hd : ¬ InDataWindow s a.toNat)
    (he : ¬ InExtraWindow s a.toNat) : pathOf s a = .unpaged := by
  obtain ⟨-, h, -⟩ | ⟨h, -⟩ | ⟨h, -⟩ | ⟨-, -, -, h⟩ := pathOf_cases s a
  · exact absurd h hp
  · exact absurd h hd
  · exact absurd h he
  · exact h

/-! ## External addresses (R75 to R78) -/

theorem externalAddress_program (hb : 0 < s.cfg.ppageBits) (h : InProgramWindow s a.toNat) :
    externalAddress s a = programWindowAddress s.cfg s.ppage a.toNat := by
  obtain ⟨hp, -, -⟩ := pathOf_iff s a
  simp only [externalAddress, hp.2 ⟨hb, h⟩]

/-- PPAGE of 8 bits. -/
theorem externalAddress_program_of_eight (hb : s.cfg.ppageBits = 8) (h : InProgramWindow s a.toNat) :
    externalAddress s a = s.ppage.toNat * 0x4000 + a.toNat % 0x4000 := by
  rw [externalAddress_program (by omega) h, programWindowAddress, if_neg (by omega)]

/-- PPAGE of 6 bits. -/
theorem externalAddress_program_of_six (hb : s.cfg.ppageBits = 6) (h : InProgramWindow s a.toNat) :
    externalAddress s a = s.ppage.toNat % 64 * 0x4000 + a.toNat % 0x4000 := by
  rw [externalAddress_program (by omega) h, programWindowAddress, if_pos (by omega)]

theorem externalAddress_data (h : InDataWindow s a.toNat) :
    externalAddress s a = 0x300000 + s.dpage.toNat * 0x1000 + a.toNat % 0x1000 := by
  obtain ⟨-, hd, -⟩ := pathOf_iff s a
  simp only [externalAddress, hd.2 h]

theorem externalAddress_extra (h : InExtraWindow s a.toNat) :
    externalAddress s a = 0x3C0000 + s.epage.toNat * 0x400 + a.toNat % 0x400 := by
  obtain ⟨-, -, he⟩ := pathOf_iff s a
  simp only [externalAddress, he.2 h]

theorem externalAddress_unpaged (hp : ¬ InProgramWindow s a.toNat) (hd : ¬ InDataWindow s a.toNat)
    (he : ¬ InExtraWindow s a.toNat) : externalAddress s a = unpagedAddress s.cfg a.toNat := by
  simp only [externalAddress, pathOf_unpaged hp hd he]

/-- Outside the windows with a PPAGE of 8 bits: six 1s over the CPU address (R78). -/
theorem externalAddress_of_eight (hb : s.cfg.ppageBits = 8) (hp : ¬ InProgramWindow s a.toNat)
    (hd : ¬ InDataWindow s a.toNat) (he : ¬ InExtraWindow s a.toNat) : externalAddress s a = 0x3F0000 + a.toNat := by
  rw [externalAddress_unpaged hp hd he, unpagedAddress, if_neg (by omega), if_pos (by omega)]

/-- The 1-megabyte map of a PPAGE of 6 bits, in pages of 16K: $3D, $3E twice, and $3F. -/
theorem unpagedAddress_of_six {c : Config} (h : c.ppageBits = 6) (n : Nat) :
    (n ≤ 0x3FFF → unpagedAddress c n = 0x3D * 0x4000 + n) ∧
    (0x4000 ≤ n → n ≤ 0x7FFF → unpagedAddress c n = 0x3E * 0x4000 + n % 0x4000) ∧
    (0xC000 ≤ n → unpagedAddress c n = 0x3F * 0x4000 + n % 0x4000) ∧
    (0x8000 ≤ n → n ≤ 0xBFFF → unpagedAddress c n = 0x3E * 0x4000 + n % 0x4000) := by
  have e : unpagedAddress c n = if n < 0x4000 then 0x3D * 0x4000 + n else
      if n < 0x8000 then 0x3E * 0x4000 + n % 0x4000 else
      if n < 0xC000 then 0xF0000 + n else 0x3F * 0x4000 + n % 0x4000 := by simp [unpagedAddress, h]
  rw [e]
  split_ifs <;> omega

/-- Outside the program window, on a device without the data and extra windows and with a PPAGE of 6 bits. -/
theorem externalAddress_of_six (hb : s.cfg.ppageBits = 6)
    (hw : ¬ (s.cfg.variant = .m68hc12 ∧ s.cfg.dataWindows = true)) :
    (a.toNat ≤ 0x3FFF → externalAddress s a = 0x3D * 0x4000 + a.toNat) ∧
    (0x4000 ≤ a.toNat → a.toNat ≤ 0x7FFF → externalAddress s a = 0x3E * 0x4000 + a.toNat % 0x4000) ∧
    (0xC000 ≤ a.toNat → externalAddress s a = 0x3F * 0x4000 + a.toNat % 0x4000) ∧
    (0x8000 ≤ a.toNat → a.toNat ≤ 0xBFFF → s.windows.pwen = false →
      externalAddress s a = 0x3E * 0x4000 + a.toNat % 0x4000) := by
  obtain ⟨h3D, h3E, h3F, hOff⟩ := unpagedAddress_of_six hb a.toNat
  have hd : ¬ InDataWindow s a.toNat := fun ⟨h, _⟩ => hw h
  have he : ¬ InExtraWindow s a.toNat := fun ⟨h, _⟩ => hw h
  have out (hp : ¬ InProgramWindow s a.toNat) := externalAddress_unpaged hp hd he
  refine ⟨fun h => ?_, fun h1 h2 => ?_, fun h => ?_, fun h1 h2 hoff => ?_⟩
  · rw [out (by unfold InProgramWindow; omega), h3D h]
  · rw [out (by unfold InProgramWindow; omega), h3E h1 h2]
  · rw [out (by unfold InProgramWindow; omega), h3F h]
  · rw [out (by simp [InProgramWindow, hoff]), hOff h1 h2]

/-! ## Page registers (10_state.md R37, R38) -/

/-- PPAGE takes a byte modulo 2 to its width. -/
theorem toNat_pageBits (bits : Nat) (v : Byte) : (pageBits bits v).toNat = v.toNat % 2 ^ bits := by
  rw [pageBits, BitVec.toNat_ofNat]
  exact Nat.mod_eq_of_lt (Nat.lt_of_le_of_lt (Nat.mod_le _ _) v.isLt)

/-- A page register takes the byte that is written to its address. -/
theorem write8_pageRegister (s : State) (a : Word) (v : Byte) :
    (locate s a = .ppage → (write8 s a v).ppage.toNat = v.toNat % 2 ^ s.cfg.ppageBits) ∧
    (locate s a = .dpage → (write8 s a v).dpage = v) ∧ (locate s a = .epage → (write8 s a v).epage = v) := by
  refine ⟨fun h => ?_, fun h => ?_, fun h => ?_⟩
  · rw [write8, h, writeTarget_ppage_same, toNat_pageBits]
  · rw [write8, h, writeTarget_dpage_same]
  · rw [write8, h, writeTarget_epage_same]

end
/-- Settles O19: the region, the block or nothing that `locate` chooses, the path and the external address of each
window, and the page registers, each by its lemma above. -/
theorem memoryMapFollowsPrecedenceAndWindows : Obligations.MemoryMapFollowsPrecedenceAndWindows := by
  unfold Obligations.MemoryMapFollowsPrecedenceAndWindows
  refine ⟨rfl, fun s a r h => ?_, fun s a ⟨r, hmem, hr⟩ => ?_,
    fun s a => ⟨(externalBlockAt_isSome_iff s a).2, fun hr he => ?_⟩, fun s a e hr h => ?_, fun s a => ?_,
    write8_pageRegister⟩
  · obtain ⟨hin, hmin⟩ := regionAt_spec h
    exact ⟨hin, hmin, locate_of_resource h⟩
  · rw [Option.isSome_iff_ne_none]
    exact fun hn => (regionAt_eq_none_iff _ _).1 hn r hmem hr
  · have hl : locate s a = .nothing := locate_of_no_resource hr he
    exact ⟨hl, by rw [byteAt, hl, targetByte]⟩
  · obtain ⟨hmem, ⟨hfirst, hlast⟩, hpath, hlow, hhigh⟩ := externalBlockAt_spec h
    exact ⟨hmem, hfirst, hlast, hpath, hlow, hhigh, locate_of_external hr h⟩
  · obtain ⟨hp, hd, he⟩ := pathOf_iff s a
    exact ⟨hp, hd, he, externalAddress_program_of_eight, externalAddress_program_of_six, externalAddress_data,
      externalAddress_extra, externalAddress_of_eight, externalAddress_of_six⟩

end Sys2Proof.Machine
end

section
/-! PROOF. What the encoder writes the decoder reads (30_encoding.md R102 to R107, R143): one rule for each reader that
the decoder is built of, in the order of its definitions, then the opcode maps, the operand classes and the
instructions. -/

namespace Sys2Proof

/-! ## Readers -/

/-- Given the bytes `l`, with any bytes after them, the reader answers `a` and those bytes. -/
def Reads {α : Type} (p : Parser α) (l : List Byte) (a : α) : Prop := ∀ rest, p (l ++ rest) = .ok (a, rest)

section
variable {α : Type} {l : List Byte} {a : α}

theorem reads_inh (i : α) : Reads (inh i) [] i := fun _ => rfl

theorem reads_byteThen {k : Byte → Parser α} {b : Byte} (h : Reads (k b) l a) : Reads (byteThen k) (b :: l) a := h

theorem reads_imm16Then {k : Word → Parser α} {v : Word} (h : Reads (k v) l a) :
    Reads (imm16Then k) (hiByte v :: loByte v :: l) a := by
  rw [← joinBytes_hiByte_loByte v] at h
  exact reads_byteThen (reads_byteThen h)

theorem reads_imm8 (f : Byte → α) (v : Byte) : Reads (imm8 f) [v] (f v) := reads_byteThen (reads_inh _)

theorem reads_imm16 (f : Word → α) (v : Word) : Reads (imm16 f) [hiByte v, loByte v] (f v) :=
  reads_imm16Then (reads_inh _)

theorem reads_imm16_imm16 (f : Word → Word → α) (v w : Word) :
    Reads (imm16Then fun v => imm16 (f v)) [hiByte v, loByte v, hiByte w, loByte w] (f v w) :=
  reads_imm16Then (k := fun v => imm16 (f v)) (reads_imm16 _ w)

end

/-! ## The indexed postbyte (R108) -/

/-- The forms without extension bytes. -/
theorem decodeXb_encIdx (i : Idx) : decodeXb (encIdx i) = .one i := by
  cases i with
  | off5 r n => cases r <;> decide +revert
  | auto r post n => cases r <;> decide +revert
  | acc r o => cases r <;> cases o <;> rfl

theorem decodeXb_off9 (r : IReg) (s : BitVec 1) : decodeXb (xbE r (0#2 ++ s)) = .off9 r s := by
  cases r <;> decide +revert

theorem decodeXb_off16 (r : IReg) : decodeXb (xbE r 2#3) = .off16 r := by cases r <;> rfl
theorem decodeXb_ind16 (r : IReg) : decodeXb (xbE r 3#3) = .ind16 r := by cases r <;> rfl
theorem decodeXb_indD (r : IReg) : decodeXb (xbE r 7#3) = .indD r := by cases r <;> rfl

/-- A 9-bit field is its top bit and its low byte. -/
theorem append_extractLsb'_nine (n : BitVec 9) : n.extractLsb' 8 1 ++ n.extractLsb' 0 8 = n := by
  rw [BitVec.extractLsb'_append_extractLsb'_eq_extractLsb' (by rfl)]
  exact BitVec.extractLsb'_eq_self

section
variable {l : List Byte}

/-- Every indexed form. -/
theorem reads_idxThen {α : Type} {a : α} {k : IdxI → Parser α} (m : IdxI) (h : Reads (k m) l a) :
    Reads (idxThen k) (encIdxI m ++ l) a := by
  intro rest
  specialize h rest
  rcases m with (i | ⟨r, n⟩ | ⟨r, n⟩) | ⟨r, n⟩ | r
  · simp [idxThen, byteThen, encIdxI, encIdxX, decodeXb_encIdx, h]
  · simp [idxThen, byteThen, encIdxI, encIdxX, decodeXb_off9, append_extractLsb'_nine, h]
  · simp [idxThen, byteThen, imm16Then, encIdxI, encIdxX, decodeXb_off16, h]
  · simp [idxThen, byteThen, imm16Then, encIdxI, decodeXb_ind16, h]
  · simp [idxThen, byteThen, encIdxI, decodeXb_indD, h]

theorem reads_ixI {α : Type} (f : IdxI → α) (m : IdxI) : Reads (ixI f) (encIdxI m) (f m) := by
  simpa [ixI] using reads_idxThen (k := fun m => inh (f m)) m (reads_inh _)

variable {a : Instr} {op : Byte}

/-- The forms that are not indirect. -/
theorem reads_idxXThen {k : IdxX → Parser Instr} (m : IdxX) (h : Reads (k m) l a) :
    Reads (idxXThen op k) (encIdxX m ++ l) a := by
  intro rest
  specialize h rest
  cases m with
  | idx i => simp [idxXThen, byteThen, encIdxX, decodeXb_encIdx, h]
  | off9 r n => simp [idxXThen, byteThen, encIdxX, decodeXb_off9, append_extractLsb'_nine, h]
  | off16 r n => simp [idxXThen, byteThen, imm16Then, encIdxX, decodeXb_off16, h]

theorem reads_ixX (f : IdxX → Instr) (m : IdxX) : Reads (ixX op f) (encIdxX m) (f m) := by
  simpa [ixX] using reads_idxXThen (k := fun m => inh (f m)) m (reads_inh _)

/-- The forms of one postbyte. -/
theorem reads_ixShortThen {k : Idx → Parser Instr} (m : Idx) (h : Reads (k m) l a) :
    Reads (ixShortThen op k) (encIdx m :: l) a := by
  intro rest
  simp [ixShortThen, byteThen, decodeXb_encIdx, h rest]

theorem reads_ixShort (f : Idx → Instr) (m : Idx) : Reads (ixShort op f) [encIdx m] (f m) :=
  reads_ixShortThen m (reads_inh _)

theorem reads_ixIx (f : Idx → Idx → Instr) (m n : Idx) : Reads (ixIx op f) [encIdx m, encIdx n] (f m n) := by
  intro rest
  simp [ixIx, byteThen, decodeXb_encIdx, inh]

end

/-! ## Undefined postbytes (R135) -/

/-- The forms that fit in one postbyte. -/
def Xb.isShort : Xb → Bool
  | .one _ => true
  | .off9 _ _ | .off16 _ | .ind16 _ | .indD _ => false

/-- The indirect forms. -/
def Xb.isIndirect : Xb → Bool
  | .ind16 _ | .indD _ => true
  | .one _ | .off9 _ _ | .off16 _ => false

theorem isIndirect_decodeXb (xb : Byte) : (decodeXb xb).isIndirect = isIndirectXb xb := by decide +revert
theorem isShort_decodeXb (xb : Byte) : (decodeXb xb).isShort = !isLongXb xb := by decide +revert

theorem decodeXb_ne_one {xb : Byte} (h : isLongXb xb = true) (i : Idx) : decodeXb xb ≠ .one i := by
  intro hx
  have hs := isShort_decodeXb xb
  simp [hx, h, Xb.isShort] at hs

theorem exists_decodeXb_eq_one {xb : Byte} (h : isLongXb xb = false) : ∃ i, decodeXb xb = .one i := by
  have hs := isShort_decodeXb xb
  cases hx : decodeXb xb with
  | one i => exact ⟨i, rfl⟩
  | off9 r s | off16 r | ind16 r | indD r => simp [hx, h, Xb.isShort] at hs

section
variable {op : Byte}

theorem reads_idxXThen_undefined {xb : Byte} (h : isIndirectXb xb = true) (k : IdxX → Parser Instr) :
    Reads (idxXThen op k) [xb] (.undefined (.page1 op xb)) := by
  intro rest
  rw [← isIndirect_decodeXb] at h
  simp only [idxXThen, byteThen, List.cons_append, List.nil_append]
  cases hx : decodeXb xb with
  | ind16 r | indD r => rfl
  | one i | off9 r s | off16 r => simp [hx, Xb.isIndirect] at h

theorem reads_ixShortThen_undefined {xb : Byte} (h : isLongXb xb = true) (k : Idx → Parser Instr) :
    Reads (ixShortThen op k) [xb] (.undefined (.page2 op xb)) := by
  intro rest
  simp only [ixShortThen, byteThen, List.cons_append, List.nil_append]
  cases hx : decodeXb xb with
  | one i => exact absurd hx (decodeXb_ne_one h i)
  | off9 r s | off16 r | ind16 r | indD r => rfl

theorem reads_ixIx_undefined {xb : Byte} (h : isLongXb xb = true) (f : Idx → Idx → Instr) :
    Reads (ixIx op f) [xb] (.undefined (.page2 op xb)) := by
  intro rest
  simp only [ixIx, byteThen, List.cons_append, List.nil_append]
  cases hx : decodeXb xb with
  | one i => exact absurd hx (decodeXb_ne_one h i)
  | off9 r s | off16 r | ind16 r | indD r => rfl

theorem reads_ixIx_undefined_second {xb1 xb2 : Byte} (h1 : isLongXb xb1 = false) (h2 : isLongXb xb2 = true)
    (f : Idx → Idx → Instr) : Reads (ixIx op f) [xb1, xb2] (.undefined (.second op xb1 xb2)) := by
  intro rest
  obtain ⟨i, hi⟩ := exists_decodeXb_eq_one h1
  simp only [ixIx, byteThen, List.cons_append, List.nil_append, hi]
  cases hx : decodeXb xb2 with
  | one j => exact absurd hx (decodeXb_ne_one h2 j)
  | off9 r s | off16 r | ind16 r | indD r => rfl

end

/-! ## The opcode maps -/

/-- The reader of what follows an opcode on page 1 (R103). -/
def page1At (b : Byte) : Parser Instr := (page1Table[b.toNat]?).getD (inh .nop)

/-- The reader of what follows the prebyte and an opcode (R104, R105). -/
def page2At (b : Byte) : Parser Instr :=
  if b.toNat < 0x40 then (page2Table[b.toNat]?).getD (trapFmt b) else trapFmt b

section
variable {l : List Byte} {i : Instr} {b : Byte} {p : Parser Instr}

/-- An instruction of page 1, by the reader that stands in the map. -/
theorem reads_page1 (h : Reads p l i) (hp : page1At b = p) : Reads decode (b :: l) i := by
  subst hp
  exact h

/-- An instruction of page 2. -/
theorem reads_page2 (h : Reads p l i) (hp : page2At b = p) : Reads decode (0x18 :: b :: l) i :=
  reads_page1 (p := page2) (b := 0x18) (by subst hp; exact h) rfl

end

/-! ## Operand classes -/

/-- The 8-bit read class (41_arith.md R220). -/
theorem reads_src8 {op : Byte} {f : Src8 → Instr} (o : Src8)
    (himm : page1At op = imm8 fun v => f (.imm v)) (hdir : page1At (op + 0x10) = imm8 fun d => f (.dir d))
    (hix : page1At (op + 0x20) = ixI fun m => f (.ix m)) (hext : page1At (op + 0x30) = imm16 fun a => f (.ext a)) :
    Reads decode (encSrc8 op o) (f o) := by
  cases o with
  | imm v => exact reads_page1 (reads_imm8 _ v) himm
  | dir d => exact reads_page1 (reads_imm8 _ d) hdir
  | ext a => exact reads_page1 (reads_imm16 _ a) hext
  | ix m => exact reads_page1 (reads_ixI _ m) hix

/-- The 16-bit read class (R221). -/
theorem reads_src16 {op : Byte} {f : Src16 → Instr} (o : Src16)
    (himm : page1At op = imm16 fun v => f (.imm v)) (hdir : page1At (op + 0x10) = imm8 fun d => f (.dir d))
    (hix : page1At (op + 0x20) = ixI fun m => f (.ix m)) (hext : page1At (op + 0x30) = imm16 fun a => f (.ext a)) :
    Reads decode (encSrc16 op o) (f o) := by
  cases o with
  | imm v => exact reads_page1 (reads_imm16 _ v) himm
  | dir d => exact reads_page1 (reads_imm8 _ d) hdir
  | ext a => exact reads_page1 (reads_imm16 _ a) hext
  | ix m => exact reads_page1 (reads_ixI _ m) hix

/-- Stores and JSR (40_load_store_move.md R161, 47_jump_sub_int.md R523). -/
theorem reads_mem3 {d x e : Byte} {f : Mem3 → Instr} (m : Mem3) (hdir : page1At d = imm8 fun d => f (.dir d))
    (hix : page1At x = ixI fun m => f (.ix m)) (hext : page1At e = imm16 fun a => f (.ext a)) :
    Reads decode (encMem3 d x e m) (f m) := by
  cases m with
  | dir d => exact reads_page1 (reads_imm8 _ d) hdir
  | ext a => exact reads_page1 (reads_imm16 _ a) hext
  | ix m => exact reads_page1 (reads_ixI _ m) hix

/-- The read-modify-write class, CLR, TST, JMP (41_arith.md R222). -/
theorem reads_mem2 {x e : Byte} {f : Mem2 → Instr} (m : Mem2) (hix : page1At x = ixI fun m => f (.ix m))
    (hext : page1At e = imm16 fun a => f (.ext a)) : Reads decode (encMem2 x e m) (f m) := by
  cases m with
  | ext a => exact reads_page1 (reads_imm16 _ a) hext
  | ix m => exact reads_page1 (reads_ixI _ m) hix

/-! ## Bit instructions: address, then mask, then offset (R106) -/

/-- Given the bytes `l` the reader of an operand goes on with the operand `m`. -/
def ReadsEa (ea : EaParser) (l : List Byte) (m : BitEa) : Prop :=
  ∀ (k : BitEa → Parser Instr) (l' : List Byte) (i : Instr), Reads (k m) l' i → Reads (ea k) (l ++ l') i

theorem readsEa_dirEa (d : Byte) : ReadsEa dirEa [d] (.dir d) := fun _ _ _ h => reads_byteThen h

theorem readsEa_extEa (a : Word) : ReadsEa extEa [hiByte a, loByte a] (.ext a) := fun _ _ _ h => reads_imm16Then h

theorem readsEa_ixEa (op : Byte) (m : IdxX) :
    ReadsEa (fun k => idxXThen op fun m => k (.ix m)) (encIdxX m) (.ix m) := fun _ _ _ h => reads_idxXThen m h

theorem reads_masked {ea : EaParser} {l : List Byte} {m : BitEa} (h : ReadsEa ea l m) (f : BitEa → Byte → Instr)
    (mm : Byte) : Reads (masked ea f) (l ++ [mm]) (f m mm) := h _ _ _ (reads_imm8 _ mm)

theorem reads_maskedRel {ea : EaParser} {l : List Byte} {m : BitEa} (h : ReadsEa ea l m)
    (f : BitEa → Byte → Byte → Instr) (mm rr : Byte) : Reads (maskedRel ea f) (l ++ [mm, rr]) (f m mm rr) :=
  h _ _ _ (reads_byteThen (reads_imm8 _ rr))

/-- The three forms of a bit instruction, `tail` being what follows its operand (42_logic_bit.md R310, 46_branch.md
R500). -/
theorem reads_bitEa {k : Byte} {fmt : EaParser → Parser Instr} {tail : List Byte} {i : Instr} (m : BitEa)
    (hfmt : ∀ ea l, ReadsEa ea l m → Reads (fmt ea) (l ++ tail) i) (hdir : page1At (0x4C + k) = fmt dirEa)
    (hext : page1At (0x1C + k) = fmt extEa) (hix : page1At (0x0C + k) = ixEa (0x0C + k) fmt) :
    Reads decode (encBitEa k m ++ tail) i := by
  cases m with
  | dir d => exact reads_page1 (hfmt _ _ (readsEa_dirEa d)) hdir
  | ext a => exact reads_page1 (hfmt _ _ (readsEa_extEa a)) hext
  | ix m => exact reads_page1 (hfmt _ _ (readsEa_ixEa _ m)) hix

/-! ## Opcodes with a form of their own -/

/-- CALL (47_jump_sub_int.md R524). -/
theorem reads_encCall (dest : CallDest) : Reads decode (encCall dest) (.call dest) := by
  cases dest with
  | ext a pg => exact reads_page1 (p := callExt) (reads_imm16Then (reads_imm8 _ pg)) rfl
  | direct m pg => exact reads_page1 (p := callIx) (reads_idxThen (.direct m) (reads_imm8 _ pg)) rfl
  | ind16 r n => exact reads_page1 (p := callIx) (reads_idxThen (.ind16 r n) (reads_inh _)) rfl
  | indD r => exact reads_page1 (p := callIx) (reads_idxThen (.indD r) (reads_inh _)) rfl

theorem tregOf_code (r : TReg) : tregOf r.code = r := by cases r <;> rfl

/-- The fields of the postbyte `eb` (40_load_store_move.md R186). -/
theorem eb_fields (e : BitVec 1) (c1 c2 : BitVec 3) : let eb : Byte := e ++ c1 ++ (0 : BitVec 1) ++ c2
    eb.extractLsb' 4 3 = c1 ∧ eb.extractLsb' 0 3 = c2 ∧ eb.getLsbD 7 = e.getLsbD 0 := by decide +revert

/-- TFR and EXG. -/
theorem reads_encEb (e : BitVec 1) (r1 r2 : TReg) :
    Reads decode [0xB7, encEb e r1 r2] (if e.getLsbD 0 then .exg r1 r2 else .tfr r1 r2) := by
  obtain ⟨h1, h2, h7⟩ := eb_fields e r1.code r2.code
  have h : Reads tfrExg [encEb e r1 r2] _ := reads_imm8 _ _
  rw [encEb, h1, h2, h7, tregOf_code, tregOf_code] at h
  exact reads_page1 h rfl

theorem loopRegOf_code (r : LoopReg) : loopRegOf r.code = some r := by cases r <;> rfl

/-- The fields of the postbyte `lb` (R130). -/
theorem lb_fields (op : BitVec 3) (s : BitVec 1) (c : BitVec 3) : let lb : Byte := op ++ s ++ (0 : BitVec 1) ++ c
    lb.extractLsb' 5 3 = op ∧ lb.extractLsb' 4 1 = s ∧ lb.extractLsb' 0 3 = c := by decide +revert

/-- The loop primitives. -/
theorem reads_encLoop {op : BitVec 3} {f : LoopReg → BitVec 9 → Instr} (h : loopOpOf op = some f) (r : LoopReg)
    (rel : BitVec 9) : Reads decode (encLoop op r rel) (f r rel) := by
  obtain ⟨hop, hs, hc⟩ := lb_fields op (rel.extractLsb' 8 1) r.code
  refine reads_page1 (p := loopPrim) (fun rest => ?_) rfl
  simp only [loopPrim, byteThen, List.cons_append, List.nil_append, hop, hs, hc, h, loopRegOf_code, imm8, inh,
    append_extractLsb'_nine]

/-- An operation or register code that is undefined. -/
theorem reads_loopPrim_undefined {lb : Byte} (h : isUndefinedLb lb = true) :
    Reads loopPrim [lb] (.undefined (.loop lb)) := by
  have hnone : ((loopOpOf (lb.extractLsb' 5 3)).isSome && (loopRegOf (lb.extractLsb' 0 3)).isSome) = false := by
    decide +revert
  intro rest
  simp only [loopPrim, byteThen, List.cons_append, List.nil_append]
  cases hop : loopOpOf (lb.extractLsb' 5 3) with
  | none => rfl
  | some f =>
    cases hr : loopRegOf (lb.extractLsb' 0 3) with
    | none => rfl
    | some r => simp [hop, hr] at hnone

/-- MOVB (40_load_store_move.md R195). -/
theorem reads_encMovb (src : MovSrc8) (dst : MovDst) : Reads decode (encMovb src dst) (.movb src dst) := by
  cases dst with
  | ix m =>
    cases src with
    | imm v => exact reads_page2 (reads_ixShortThen m (reads_imm8 _ v)) rfl
    | ext a => exact reads_page2 (reads_ixShortThen m (reads_imm16 _ a)) rfl
    | ix n => exact reads_page2 (reads_ixIx _ n m) rfl
  | ext e =>
    cases src with
    | imm v => exact reads_page2 (reads_byteThen (reads_imm16 _ e)) rfl
    | ext a => exact reads_page2 (reads_imm16_imm16 (fun a e => Instr.movb (.ext a) (.ext e)) a e) rfl
    | ix n => exact reads_page2 (reads_ixShortThen n (reads_imm16 _ e)) rfl

/-- MOVW (R197). -/
theorem reads_encMovw (src : MovSrc16) (dst : MovDst) : Reads decode (encMovw src dst) (.movw src dst) := by
  cases dst with
  | ix m =>
    cases src with
    | imm v => exact reads_page2 (reads_ixShortThen m (reads_imm16 _ v)) rfl
    | ext a => exact reads_page2 (reads_ixShortThen m (reads_imm16 _ a)) rfl
    | ix n => exact reads_page2 (reads_ixIx _ n m) rfl
  | ext e =>
    cases src with
    | imm v => exact reads_page2 (reads_imm16_imm16 (fun v e => Instr.movw (.imm v) (.ext e)) v e) rfl
    | ext a => exact reads_page2 (reads_imm16_imm16 (fun a e => Instr.movw (.ext a) (.ext e)) a e) rfl
    | ix n => exact reads_page2 (reads_ixShortThen n (reads_imm16 _ e)) rfl

/-- The trap opcodes: those of the map's fourth row, and those above it (R105). -/
theorem page2At_trap {tn : Byte} (h : isTrapNumber tn = true) : page2At tn = trapFmt tn := by
  have hcases : 0x40 ≤ tn.toNat ∨ tn ∈ [(0x30 : Byte), 0x31, 0x32, 0x33, 0x34, 0x35, 0x36, 0x37, 0x38, 0x39] := by
    decide +revert
  rcases hcases with hle | hmem
  · exact if_neg (Nat.not_lt.2 hle)
  · simp only [List.mem_cons, List.not_mem_nil, or_false] at hmem
    rcases hmem with rfl | rfl | rfl | rfl | rfl | rfl | rfl | rfl | rfl | rfl <;> exact rfl

/-- TRAP. -/
theorem reads_trap {tn : Byte} (h : isTrapNumber tn = true) : Reads decode [0x18, tn] (.trap tn) :=
  reads_page2 (reads_inh _) (page2At_trap h)

/-- The opcodes of page 1 whose postbyte must not be indirect. -/
theorem page1At_idxXThen {op : Byte} (h : op ∈ [(0x0C : Byte), 0x0D, 0x0E, 0x0F, 0x19, 0x1A, 0x1B]) :
    ∃ k, page1At op = idxXThen op k := by
  simp only [List.mem_cons, List.not_mem_nil, or_false] at h
  rcases h with rfl | rfl | rfl | rfl | rfl | rfl | rfl
  · exact ⟨fun m => imm8 (.bset (.ix m)), rfl⟩
  · exact ⟨fun m => imm8 (.bclr (.ix m)), rfl⟩
  · exact ⟨fun m => byteThen fun mm => imm8 (.brset (.ix m) mm), rfl⟩
  · exact ⟨fun m => byteThen fun mm => imm8 (.brclr (.ix m) mm), rfl⟩
  · exact ⟨fun m => inh (.leay m), rfl⟩
  · exact ⟨fun m => inh (.leax m), rfl⟩
  · exact ⟨fun m => inh (.leas m), rfl⟩

/-- The opcodes of page 2 with one postbyte of one byte. -/
theorem page2At_ixShortThen {op : Byte} (h : op ∈ [(0x00 : Byte), 0x01, 0x05, 0x08, 0x09, 0x0D, 0x3D, 0x3F]) :
    ∃ k, page2At op = ixShortThen op k := by
  simp only [List.mem_cons, List.not_mem_nil, or_false] at h
  rcases h with rfl | rfl | rfl | rfl | rfl | rfl | rfl | rfl <;> exact ⟨_, rfl⟩

/-- The opcodes of page 2 with two. -/
theorem page2At_ixIx {op : Byte} (h : op ∈ [(0x02 : Byte), 0x0A]) : ∃ f, page2At op = ixIx op f := by
  simp only [List.mem_cons, List.not_mem_nil, or_false] at h
  rcases h with rfl | rfl <;> exact ⟨_, rfl⟩

/-- The encodings that the glossary does not list (R135). -/
theorem reads_encUndef {e : UndefEnc} (h : e.wf = true) : Reads decode (encUndef e) (.undefined e) := by
  cases e with
  | page1 op xb =>
    obtain ⟨hop, hxb⟩ := Bool.and_eq_true_iff.1 h
    obtain ⟨k, hk⟩ := page1At_idxXThen (op := op) (by clear h; decide +revert)
    exact reads_page1 (reads_idxXThen_undefined hxb k) hk
  | page2 op xb =>
    obtain ⟨hop, hxb⟩ := Bool.and_eq_true_iff.1 h
    have hcases : op ∈ [(0x00 : Byte), 0x01, 0x05, 0x08, 0x09, 0x0D, 0x3D, 0x3F] ∨ op ∈ [(0x02 : Byte), 0x0A] := by
      clear h; decide +revert
    rcases hcases with hshort | hlong
    · obtain ⟨k, hk⟩ := page2At_ixShortThen hshort
      exact reads_page2 (reads_ixShortThen_undefined hxb k) hk
    · obtain ⟨f, hf⟩ := page2At_ixIx hlong
      exact reads_page2 (reads_ixIx_undefined hxb f) hf
  | second op xb1 xb2 =>
    simp only [UndefEnc.wf, Bool.and_eq_true, Bool.not_eq_true'] at h
    obtain ⟨⟨hop, h1⟩, h2⟩ := h
    obtain ⟨f, hf⟩ := page2At_ixIx (op := op) (by decide +revert)
    exact reads_page2 (reads_ixIx_undefined_second h1 h2 f) hf
  | loop lb => exact reads_page1 (reads_loopPrim_undefined h) rfl

/-! ## The instructions -/

/-- Every well-formed instruction, by the rule of its operand class. -/
theorem reads_encode {i : Instr} (h : i.wf = true) : Reads decode (encode i) i.canon := by
  cases i
  case ldaa o | ldab o | adca o | adcb o | adda o | addb o | sbca o | sbcb o | suba o | subb o | cmpa o | cmpb o |
      anda o | andb o | eora o | eorb o | oraa o | orab o | bita o | bitb o => exact reads_src8 o rfl rfl rfl rfl
  case ldd o | lds o | ldx o | ldy o | addd o | subd o | cpd o | cps o | cpx o | cpy o =>
    exact reads_src16 o rfl rfl rfl rfl
  case staa m | stab m | std m | sts m | stx m | sty m | jsr m => exact reads_mem3 m rfl rfl rfl
  case dec m | inc m | tst m | clr m | com m | neg m | asl m | lsl m | asr m | lsr m | rol m | ror m | jmp m =>
    exact reads_mem2 m rfl rfl
  case maxa m | mina m | emaxd m | emind m | maxm m | minm m | emaxm m | eminm m =>
    exact reads_page2 (reads_ixI _ m) rfl
  case leas m | leax m | leay m => exact reads_page1 (reads_ixX _ m) rfl
  case tbl m | etbl m => exact reads_page2 (reads_ixShort _ m) rfl
  case emacs v | lbra v | lbrn v | lbhi v | lbls v | lbcc v | lbcs v | lbne v | lbeq v | lbvc v | lbvs v | lbpl v |
      lbmi v | lbge v | lblt v | lbgt v | lble v | lbhs v | lblo v => exact reads_page2 (reads_imm16 _ v) rfl
  case bra v | brn v | bhi v | bls v | bcc v | bcs v | bne v | beq v | bvc v | bvs v | bpl v | bmi v | bge v | blt v |
      bgt v | ble v | bhs v | blo v | bsr v | andcc v | orcc v => exact reads_page1 (reads_imm8 _ v) rfl
  case dbeq r rel | dbne r rel | tbeq r rel | tbne r rel | ibeq r rel | ibne r rel => exact reads_encLoop rfl r rel
  case bset m mask | bclr m mask => exact reads_bitEa m (fun _ _ hm => reads_masked hm _ mask) rfl rfl rfl
  case brset m mask rel | brclr m mask rel =>
    exact reads_bitEa m (fun _ _ hm => reads_maskedRel hm _ mask rel) rfl rfl rfl
  case tfr r1 r2 => exact reads_encEb 0 r1 r2
  case exg r1 r2 => exact reads_encEb 1 r1 r2
  case sex src dst => exact reads_encEb 0 src.toTReg dst.toTReg
  case movb src dst => exact reads_encMovb src dst
  case movw src dst => exact reads_encMovw src dst
  case call dest => exact reads_encCall dest
  case trap tn => exact reads_trap h
  case undefined e => exact reads_encUndef h
  -- No operand: the bytes are written out.
  all_goals exact fun _ => rfl

/-- Settles O1: every instruction reads by the rule of its operand class, whatever bytes come after it. -/
theorem decodeOfEncodeIsTheCoreInstruction : Obligations.DecodeOfEncodeIsTheCoreInstruction := by
  unfold Obligations.DecodeOfEncodeIsTheCoreInstruction
  exact fun i rest h => reads_encode h rest

end Sys2Proof
end

section
/-! PROOF. What the decoder answers, whatever bytes it is given (30_encoding.md R101, R103 to R105, R135): one rule for
each reader that it is built of, in the order of its definitions, then the two opcode maps, row by row, and the decoder.
-/

namespace Sys2Proof

/-! ## Readers on any bytes -/

/-- Given any bytes, the reader takes at most `n` of them from the front and answers an item that stands to them as `Q`
says, or there are fewer than `n`. -/
def Takes {α : Type} (n : Nat) (Q : List Byte → α → Prop) (p : Parser α) : Prop :=
  ∀ bs, (∃ pre rest a, p bs = .ok (a, rest) ∧ bs = pre ++ rest ∧ pre.length ≤ n ∧ Q pre a) ∨
    (p bs = .error .truncated ∧ bs.length < n)

section
variable {α : Type} {n : Nat} {Q : List Byte → α → Prop}

theorem takes_inh {i : α} (h : Q [] i) : Takes n Q (inh i) := fun bs => .inl ⟨[], bs, i, rfl, rfl, Nat.zero_le n, h⟩

theorem takes_byteThen {k : Byte → Parser α} (h : ∀ b, Takes n (fun l => Q (b :: l)) (k b)) :
    Takes (n + 1) Q (byteThen k) := by
  rintro (_ | ⟨b, bs⟩)
  · exact .inr ⟨rfl, Nat.succ_pos n⟩
  · obtain ⟨pre, rest, a, hp, rfl, hle, hq⟩ | ⟨hp, hlt⟩ := h b bs
    · exact .inl ⟨b :: pre, rest, a, hp, rfl, Nat.succ_le_succ hle, hq⟩
    · exact .inr ⟨hp, Nat.succ_lt_succ hlt⟩

/-- A larger bound, and less said of the answer. -/
theorem Takes.imp {m : Nat} {R : List Byte → α → Prop} {p : Parser α} (h : Takes n Q p) (hn : n ≤ m)
    (hqr : ∀ l a, Q l a → R l a) : Takes m R p := by
  intro bs
  obtain ⟨pre, rest, a, hp, hbs, hle, hq⟩ | ⟨hp, hlt⟩ := h bs
  · exact .inl ⟨pre, rest, a, hp, hbs, hle.trans hn, hqr pre a hq⟩
  · exact .inr ⟨hp, hlt.trans_le hn⟩

end

/-! ## Instructions -/

/-- The instructions whose fields the statements trace back to their bytes: TRAP and the encodings of R135. -/
def Instr.isTraced : Instr → Bool
  | .trap _ | .undefined _ => true
  | _ => false

/-- What the decoder answers for the bytes `l`: a well-formed core instruction, and where it is traced its own bytes. -/
def Decoded (l : List Byte) (i : Instr) : Prop := i.wf = true ∧ i.canon = i ∧ (i.isTraced = true → encode i = l)

/-- A well-formed core instruction that is not traced. -/
def Ordinary (i : Instr) : Prop := i.wf = true ∧ i.canon = i ∧ i.isTraced = false

theorem Ordinary.decoded {i : Instr} (h : Ordinary i) (l : List Byte) : Decoded l i := by
  obtain ⟨hwf, hcanon, hnot⟩ := h
  exact ⟨hwf, hcanon, fun ht => by simp [hnot] at ht⟩

/-- A reader of at most `n` bytes that answers ordinary instructions alone. -/
abbrev TakesOrdinary (n : Nat) (p : Parser Instr) : Prop := Takes n (fun _ => Ordinary) p

/-- Whatever bytes stand before what it reads. -/
theorem Takes.decoded {n m : Nat} {p : Parser Instr} (h : TakesOrdinary n p) (hn : n ≤ m) (f : List Byte → List Byte) :
    Takes m (fun l => Decoded (f l)) p := h.imp hn fun _ _ hi => hi.decoded _

/-! ## The readers of ordinary instructions -/

section
variable {n : Nat}

theorem takesOrdinary_imm16Then {k : Word → Parser Instr} (h : ∀ v, TakesOrdinary n (k v)) :
    TakesOrdinary (n + 2) (imm16Then k) := takes_byteThen fun b => takes_byteThen fun c => h (joinBytes b c)

theorem takesOrdinary_inh {i : Instr} (h : Ordinary i) : TakesOrdinary n (inh i) := takes_inh h

theorem takesOrdinary_imm8 {f : Byte → Instr} (h : ∀ v, Ordinary (f v)) : TakesOrdinary (n + 1) (imm8 f) :=
  takes_byteThen fun v => takes_inh (h v)

theorem takesOrdinary_imm16 {f : Word → Instr} (h : ∀ v, Ordinary (f v)) : TakesOrdinary (n + 2) (imm16 f) :=
  takesOrdinary_imm16Then fun v => takes_inh (h v)

theorem takesOrdinary_imm8_imm16 {f : Byte → Word → Instr} (h : ∀ v w, Ordinary (f v w)) :
    TakesOrdinary (n + 3) (imm8Then fun v => imm16 (f v)) := takes_byteThen fun v => takesOrdinary_imm16 (h v)

theorem takesOrdinary_imm16_imm16 {f : Word → Word → Instr} (h : ∀ v w, Ordinary (f v w)) :
    TakesOrdinary (n + 4) (imm16Then fun v => imm16 (f v)) := takesOrdinary_imm16Then fun v => takesOrdinary_imm16 (h v)

theorem takesOrdinary_idxThen {k : IdxI → Parser Instr} (h : ∀ m, TakesOrdinary n (k m)) :
    TakesOrdinary (n + 3) (idxThen k) := by
  refine takes_byteThen fun xb => ?_
  cases decodeXb xb with
  | one i => exact (h _).imp (by omega) fun _ _ => id
  | off9 r s => exact (takes_byteThen fun ff => h _).imp (by omega) fun _ _ => id
  | off16 r => exact takesOrdinary_imm16Then fun v => h _
  | ind16 r => exact takesOrdinary_imm16Then fun v => h _
  | indD r => exact (h _).imp (by omega) fun _ _ => id

theorem takesOrdinary_ixI {f : IdxI → Instr} (h : ∀ m, Ordinary (f m)) : TakesOrdinary (n + 3) (ixI f) :=
  takesOrdinary_idxThen fun m => takes_inh (h m)

theorem takesOrdinary_masked_dirEa {f : BitEa → Byte → Instr} (h : ∀ m v, Ordinary (f m v)) :
    TakesOrdinary (n + 2) (masked dirEa f) := takes_byteThen fun d => takesOrdinary_imm8 (h (.dir d))

theorem takesOrdinary_masked_extEa {f : BitEa → Byte → Instr} (h : ∀ m v, Ordinary (f m v)) :
    TakesOrdinary (n + 3) (masked extEa f) := takesOrdinary_imm16Then fun a => takesOrdinary_imm8 (h (.ext a))

theorem takesOrdinary_maskedRel_dirEa {f : BitEa → Byte → Byte → Instr} (h : ∀ m v w, Ordinary (f m v w)) :
    TakesOrdinary (n + 3) (maskedRel dirEa f) :=
  takes_byteThen fun d => takes_byteThen fun v => takesOrdinary_imm8 (h (.dir d) v)

theorem takesOrdinary_maskedRel_extEa {f : BitEa → Byte → Byte → Instr} (h : ∀ m v w, Ordinary (f m v w)) :
    TakesOrdinary (n + 4) (maskedRel extEa f) :=
  takesOrdinary_imm16Then fun a => takes_byteThen fun v => takesOrdinary_imm8 (h (.ext a) v)

theorem takesOrdinary_callExt : TakesOrdinary (n + 3) callExt :=
  takesOrdinary_imm16Then fun _ => takesOrdinary_imm8 fun _ => ⟨rfl, rfl, rfl⟩

theorem takesOrdinary_callIx : TakesOrdinary (n + 4) callIx := by
  refine takesOrdinary_idxThen (n := n + 1) fun m => ?_
  cases m with
  | direct m => exact takesOrdinary_imm8 fun _ => ⟨rfl, rfl, rfl⟩
  | ind16 r n => exact takes_inh ⟨rfl, rfl, rfl⟩
  | indD r => exact takes_inh ⟨rfl, rfl, rfl⟩

theorem takesOrdinary_tfrExg : TakesOrdinary (n + 1) tfrExg :=
  takesOrdinary_imm8 fun eb => by dsimp only; split <;> exact ⟨rfl, rfl, rfl⟩

end

/-! ## The readers that may come upon an encoding of R135

Each is given that its opcode is one of those which the well-formed encodings name. -/

theorem decoded_undefined {e : UndefEnc} (h : e.wf = true) : Decoded (encUndef e) (.undefined e) :=
  ⟨h, rfl, fun _ => rfl⟩

theorem decoded_trap {tn : Byte} (h : isTrapNumber tn = true) : Decoded [0x18, tn] (.trap tn) := ⟨h, rfl, fun _ => rfl⟩

section
variable {op : Byte}

/-- An opcode of page 1 whose postbyte must not be indirect. -/
theorem takes_idxXThen {k : IdxX → Parser Instr} (hop : ∀ xb, (UndefEnc.page1 op xb).wf = isIndirectXb xb)
    (h : ∀ m, TakesOrdinary 2 (k m)) : Takes 5 (fun l => Decoded (op :: l)) (idxXThen op k) := by
  refine takes_byteThen fun xb => ?_
  have hxb := isIndirect_decodeXb xb
  cases hd : decodeXb xb with
  | one i => exact Takes.decoded (h _) (by decide) _
  | off9 r s => exact Takes.decoded (takes_byteThen fun ff => h _) (by decide) _
  | off16 r => exact Takes.decoded (takesOrdinary_imm16Then fun v => h _) le_rfl _
  | ind16 r | indD r =>
    rw [hd, ← hop] at hxb
    exact takes_inh (decoded_undefined hxb.symm)

theorem takes_ixX {f : IdxX → Instr} (hop : ∀ xb, (UndefEnc.page1 op xb).wf = isIndirectXb xb)
    (h : ∀ m, Ordinary (f m)) : Takes 5 (fun l => Decoded (op :: l)) (ixX op f) :=
  takes_idxXThen hop fun m => takes_inh (h m)

theorem takes_ixEa_masked {f : BitEa → Byte → Instr} (hop : ∀ xb, (UndefEnc.page1 op xb).wf = isIndirectXb xb)
    (h : ∀ m v, Ordinary (f m v)) : Takes 5 (fun l => Decoded (op :: l)) (ixEa op (masked · f)) :=
  takes_idxXThen hop fun m => takesOrdinary_imm8 (h (.ix m))

theorem takes_ixEa_maskedRel {f : BitEa → Byte → Byte → Instr}
    (hop : ∀ xb, (UndefEnc.page1 op xb).wf = isIndirectXb xb) (h : ∀ m v w, Ordinary (f m v w)) :
    Takes 5 (fun l => Decoded (op :: l)) (ixEa op (maskedRel · f)) :=
  takes_idxXThen hop fun m => takes_byteThen fun v => takesOrdinary_imm8 (h (.ix m) v)

/-- An opcode of page 2 whose only postbyte must be one byte. -/
theorem takes_ixShortThen {k : Idx → Parser Instr} (hop : ∀ xb, (UndefEnc.page2 op xb).wf = isLongXb xb)
    (h : ∀ m, TakesOrdinary 3 (k m)) : Takes 4 (fun l => Decoded (0x18 :: op :: l)) (ixShortThen op k) := by
  refine takes_byteThen fun xb => ?_
  have hxb := isShort_decodeXb xb
  cases hd : decodeXb xb with
  | one i => exact Takes.decoded (h _) le_rfl _
  | off9 r s | off16 r | ind16 r | indD r =>
    rw [hd, ← hop, eq_comm, Bool.not_eq_eq_eq_not] at hxb
    exact takes_inh (decoded_undefined hxb)

/-- An opcode of page 2 with two such postbytes. -/
theorem takes_ixIx {f : Idx → Idx → Instr} (hop : ∀ xb, (UndefEnc.page2 op xb).wf = isLongXb xb)
    (hop2 : ∀ xb1 xb2, (UndefEnc.second op xb1 xb2).wf = (!isLongXb xb1 && isLongXb xb2))
    (h : ∀ i j, Ordinary (f i j)) : Takes 4 (fun l => Decoded (0x18 :: op :: l)) (ixIx op f) := by
  refine takes_byteThen (n := 3) fun xb1 => ?_
  have hxb1 := isShort_decodeXb xb1
  cases hd1 : decodeXb xb1 with
  | one i =>
    refine takes_byteThen (n := 2) fun xb2 => ?_
    have hxb2 := isShort_decodeXb xb2
    cases hd2 : decodeXb xb2 with
    | one j => exact takes_inh ((h i j).decoded _)
    | off9 r s | off16 r | ind16 r | indD r =>
      rw [hd1] at hxb1
      rw [hd2, eq_comm, Bool.not_eq_eq_eq_not] at hxb2
      have hwf : (UndefEnc.second op xb1 xb2).wf = true := by rw [hop2, ← hxb1, hxb2]; rfl
      exact takes_inh (decoded_undefined hwf)
  | off9 r s | off16 r | ind16 r | indD r =>
    rw [hd1, ← hop, eq_comm, Bool.not_eq_eq_eq_not] at hxb1
    exact takes_inh (decoded_undefined hxb1)

end

/-- What `lb[7:5]` selects is ordinary (R130). -/
theorem ordinary_of_loopOpOf {c : BitVec 3} {f : LoopReg → BitVec 9 → Instr} (h : loopOpOf c = some f) (r : LoopReg)
    (rel : BitVec 9) : Ordinary (f r rel) := by
  unfold loopOpOf at h
  split at h <;> cases h <;> exact ⟨rfl, rfl, rfl⟩

theorem takes_loopPrim : Takes 5 (fun l => Decoded (0x04 :: l)) loopPrim := by
  refine takes_byteThen fun lb => ?_
  have hlb : ((loopOpOf (lb.extractLsb' 5 3)).isNone || (loopRegOf (lb.extractLsb' 0 3)).isNone) =
      isUndefinedLb lb := by decide +revert
  cases hop : loopOpOf (lb.extractLsb' 5 3) with
  | none =>
    rw [hop] at hlb
    exact takes_inh (decoded_undefined (e := .loop lb) hlb.symm)
  | some f =>
    cases hr : loopRegOf (lb.extractLsb' 0 3) with
    | none =>
      rw [hop, hr] at hlb
      exact takes_inh (decoded_undefined (e := .loop lb) hlb.symm)
    | some r => exact Takes.decoded (takesOrdinary_imm8 (n := 3) fun rr => ordinary_of_loopOpOf hop r _) le_rfl _

/-! ## Page 2 (R104, R105) -/

/-- The reader at a position of page 2 answers what its opcode stands for. -/
abbrev SoundOnPage2 (x : Parser Instr × Nat) : Prop := Takes 4 (fun l => Decoded (0x18 :: BitVec.ofNat 8 x.2 :: l)) x.1

/-- An ordinary reader does so at any position. -/
theorem soundOnPage2_ordinary {p : Parser Instr} {b : Nat} (h : TakesOrdinary 4 p) : SoundOnPage2 (p, b) :=
  h.decoded le_rfl _

/-- The moves and four INH instructions. -/
theorem page2Row0_sound : ∀ x ∈ page2Row0.zipIdx 0x00, SoundOnPage2 x := by
  simp only [page2Row0, List.zipIdx_cons, List.zipIdx_nil, List.forall_mem_cons]
  refine ⟨takes_ixShortThen (fun _ => rfl) ?_, takes_ixShortThen (fun _ => rfl) ?_,
    takes_ixIx (fun _ => rfl) (fun _ _ => rfl) fun _ _ => ⟨rfl, rfl, rfl⟩, soundOnPage2_ordinary ?_,
    soundOnPage2_ordinary ?_, takes_ixShortThen (fun _ => rfl) ?_, soundOnPage2_ordinary ?_, soundOnPage2_ordinary ?_,
    takes_ixShortThen (fun _ => rfl) ?_, takes_ixShortThen (fun _ => rfl) ?_,
    takes_ixIx (fun _ => rfl) (fun _ _ => rfl) fun _ _ => ⟨rfl, rfl, rfl⟩, soundOnPage2_ordinary ?_,
    soundOnPage2_ordinary ?_, takes_ixShortThen (fun _ => rfl) ?_, soundOnPage2_ordinary ?_, soundOnPage2_ordinary ?_,
    nofun⟩
  all_goals intros
  all_goals apply_rules [takesOrdinary_inh, takesOrdinary_imm8, takesOrdinary_imm16, takesOrdinary_imm16_imm16,
    takesOrdinary_imm8_imm16]
  all_goals intros; exact ⟨rfl, rfl, rfl⟩

/-- Division, multiplication, minimum and maximum, and the long branches. -/
theorem page2Row1_page2Row2_ordinary : ∀ p ∈ page2Row1 ++ page2Row2, TakesOrdinary 4 p := by
  simp only [page2Row1, page2Row2, List.forall_mem_append, List.forall_mem_cons, List.not_mem_nil, IsEmpty.forall_iff,
    implies_true, and_true]
  and_intros
  all_goals apply_rules [takesOrdinary_inh, takesOrdinary_imm16, takesOrdinary_ixI]
  all_goals intros; exact ⟨rfl, rfl, rfl⟩

/-- The trap opcodes, TBL and ETBL, and INH instructions. -/
theorem page2Row3_sound : ∀ x ∈ page2Row3.zipIdx 0x30, SoundOnPage2 x := by
  have trap (tn : Byte) (h : isTrapNumber tn = true) : Takes 4 (fun l => Decoded (0x18 :: tn :: l)) (trapFmt tn) :=
    takes_inh (decoded_trap h)
  have inherent {i : Instr} {b : Nat} (h : Ordinary i) : SoundOnPage2 (inh i, b) :=
    soundOnPage2_ordinary (takesOrdinary_inh h)
  have table {op : Byte} {f : Idx → Instr} (hop : ∀ xb, (UndefEnc.page2 op xb).wf = isLongXb xb)
    (h : ∀ m, Ordinary (f m)) : Takes 4 (fun l => Decoded (0x18 :: op :: l)) (ixShort op f) :=
    takes_ixShortThen hop fun m => takesOrdinary_inh (h m)
  simp only [page2Row3, List.zipIdx_cons, List.zipIdx_nil, List.forall_mem_cons]
  exact ⟨trap 0x30 rfl, trap 0x31 rfl, trap 0x32 rfl, trap 0x33 rfl, trap 0x34 rfl, trap 0x35 rfl, trap 0x36 rfl,
    trap 0x37 rfl, trap 0x38 rfl, trap 0x39 rfl, inherent ⟨rfl, rfl, rfl⟩, inherent ⟨rfl, rfl, rfl⟩,
    inherent ⟨rfl, rfl, rfl⟩, table (fun _ => rfl) fun _ => ⟨rfl, rfl, rfl⟩, inherent ⟨rfl, rfl, rfl⟩,
    table (fun _ => rfl) fun _ => ⟨rfl, rfl, rfl⟩, nofun⟩

theorem page2Table_sound : ∀ x ∈ page2Table.zipIdx, SoundOnPage2 x := by
  have ordinary (l : List (Parser Instr)) (h : ∀ p ∈ l, TakesOrdinary 4 p) (k : Nat) :
    ∀ x ∈ l.zipIdx k, SoundOnPage2 x := fun x hx => soundOnPage2_ordinary (h _ (List.fst_mem_of_mem_zipIdx hx))
  obtain ⟨h1, h2⟩ := List.forall_mem_append.1 page2Row1_page2Row2_ordinary
  simp only [page2Table, List.zipIdx_append, List.forall_mem_append]
  exact ⟨⟨⟨page2Row0_sound, ordinary _ h1 _⟩, ordinary _ h2 _⟩, page2Row3_sound⟩

/-- The entry at a position of a map, and a property of all entries with their positions. -/
theorem getD_of_zipIdx {α : Type} {P : α × Nat → Prop} {l : List α} (h : ∀ x ∈ l.zipIdx, P x) {k : Nat}
    (hk : k < l.length) (d : α) : P ((l[k]?).getD d, k) := by
  rw [List.getElem?_eq_getElem hk]
  exact h _ (List.mk_mem_zipIdx_iff_getElem?.2 (List.getElem?_eq_getElem hk))

theorem page2At_sound (b : Byte) : Takes 4 (fun l => Decoded (0x18 :: b :: l)) (page2At b) := by
  unfold page2At
  split
  · have h := getD_of_zipIdx page2Table_sound (k := b.toNat) ‹_› (trapFmt b)
    rwa [SoundOnPage2, BitVec.ofNat_toNat, BitVec.setWidth_eq] at h
  · exact takes_inh (decoded_trap (by simp [isTrapNumber]; omega))

theorem takes_page2 : Takes 5 (fun l => Decoded (0x18 :: l)) page2 := takes_byteThen page2At_sound

/-! ## Page 1 (R103) -/

/-- The reader at a position of page 1 answers what its opcode stands for. -/
abbrev SoundOnPage1 (x : Parser Instr × Nat) : Prop := Takes 5 (fun l => Decoded (BitVec.ofNat 8 x.2 :: l)) x.1

/-- An ordinary reader does so at any position. -/
theorem soundOnPage1_ordinary {p : Parser Instr} {b : Nat} (h : TakesOrdinary 5 p) : SoundOnPage1 (p, b) :=
  h.decoded le_rfl _

theorem row0_sound : ∀ x ∈ row0.zipIdx 0x00, SoundOnPage1 x := by
  have inherent {i : Instr} {b : Nat} (h : Ordinary i) : SoundOnPage1 (inh i, b) :=
    soundOnPage1_ordinary (takesOrdinary_inh h)
  simp only [row0, List.zipIdx_cons, List.zipIdx_nil, List.forall_mem_cons]
  exact ⟨inherent ⟨rfl, rfl, rfl⟩, inherent ⟨rfl, rfl, rfl⟩, inherent ⟨rfl, rfl, rfl⟩, inherent ⟨rfl, rfl, rfl⟩,
    takes_loopPrim, soundOnPage1_ordinary (takesOrdinary_ixI fun _ => ⟨rfl, rfl, rfl⟩),
    soundOnPage1_ordinary (takesOrdinary_imm16 fun _ => ⟨rfl, rfl, rfl⟩),
    soundOnPage1_ordinary (takesOrdinary_imm8 fun _ => ⟨rfl, rfl, rfl⟩),
    inherent ⟨rfl, rfl, rfl⟩, inherent ⟨rfl, rfl, rfl⟩, inherent ⟨rfl, rfl, rfl⟩, inherent ⟨rfl, rfl, rfl⟩,
    takes_ixEa_masked (fun _ => rfl) fun _ _ => ⟨rfl, rfl, rfl⟩,
    takes_ixEa_masked (fun _ => rfl) fun _ _ => ⟨rfl, rfl, rfl⟩,
    takes_ixEa_maskedRel (fun _ => rfl) fun _ _ _ => ⟨rfl, rfl, rfl⟩,
    takes_ixEa_maskedRel (fun _ => rfl) fun _ _ _ => ⟨rfl, rfl, rfl⟩, nofun⟩

theorem row1_sound : ∀ x ∈ row1.zipIdx 0x10, SoundOnPage1 x := by
  have inherent {i : Instr} {b : Nat} (h : Ordinary i) : SoundOnPage1 (inh i, b) :=
    soundOnPage1_ordinary (takesOrdinary_inh h)
  have byte {f : Byte → Instr} {b : Nat} (h : ∀ v, Ordinary (f v)) : SoundOnPage1 (imm8 f, b) :=
    soundOnPage1_ordinary (takesOrdinary_imm8 h)
  simp only [row1, List.zipIdx_cons, List.zipIdx_nil, List.forall_mem_cons]
  exact ⟨byte fun _ => ⟨rfl, rfl, rfl⟩, inherent ⟨rfl, rfl, rfl⟩, inherent ⟨rfl, rfl, rfl⟩, inherent ⟨rfl, rfl, rfl⟩,
    byte fun _ => ⟨rfl, rfl, rfl⟩, soundOnPage1_ordinary (takesOrdinary_ixI fun _ => ⟨rfl, rfl, rfl⟩),
    soundOnPage1_ordinary (takesOrdinary_imm16 fun _ => ⟨rfl, rfl, rfl⟩), byte fun _ => ⟨rfl, rfl, rfl⟩, takes_page2,
    takes_ixX (fun _ => rfl) fun _ => ⟨rfl, rfl, rfl⟩, takes_ixX (fun _ => rfl) fun _ => ⟨rfl, rfl, rfl⟩,
    takes_ixX (fun _ => rfl) fun _ => ⟨rfl, rfl, rfl⟩,
    soundOnPage1_ordinary (takesOrdinary_masked_extEa fun _ _ => ⟨rfl, rfl, rfl⟩),
    soundOnPage1_ordinary (takesOrdinary_masked_extEa fun _ _ => ⟨rfl, rfl, rfl⟩),
    soundOnPage1_ordinary (takesOrdinary_maskedRel_extEa fun _ _ _ => ⟨rfl, rfl, rfl⟩),
    soundOnPage1_ordinary (takesOrdinary_maskedRel_extEa fun _ _ _ => ⟨rfl, rfl, rfl⟩), nofun⟩

/-- Short branches, INH instructions, CALL, the direct forms of the bit instructions and of the stores. -/
theorem row2_to_row5_ordinary : ∀ p ∈ row2 ++ row3 ++ row4 ++ row5, TakesOrdinary 5 p := by
  simp only [row2, row3, row4, row5, List.forall_mem_append, List.forall_mem_cons, List.not_mem_nil,
    IsEmpty.forall_iff, implies_true, and_true]
  and_intros
  all_goals apply_rules [takesOrdinary_inh, takesOrdinary_imm8, takesOrdinary_callExt, takesOrdinary_callIx,
    takesOrdinary_masked_dirEa, takesOrdinary_maskedRel_dirEa]
  all_goals intros; exact ⟨rfl, rfl, rfl⟩

/-- The indexed and extended forms of the read-modify-write class and of the stores. -/
theorem row6_row7_ordinary : ∀ p ∈ row6 ++ row7, TakesOrdinary 5 p := by
  simp only [row6, row7, List.forall_mem_append, List.forall_mem_cons, List.not_mem_nil, IsEmpty.forall_iff,
    implies_true, and_true]
  and_intros
  all_goals apply_rules [takesOrdinary_imm16, takesOrdinary_ixI]
  all_goals intros; exact ⟨rfl, rfl, rfl⟩

/-- The read class on A, D and the index registers, TFR and EXG. -/
theorem row8_to_rowB_ordinary : ∀ p ∈ row8 ++ row9 ++ rowA ++ rowB, TakesOrdinary 5 p := by
  simp only [row8, row9, rowA, rowB, List.forall_mem_append, List.forall_mem_cons, List.not_mem_nil,
    IsEmpty.forall_iff, implies_true, and_true]
  and_intros
  all_goals apply_rules [takesOrdinary_tfrExg, takesOrdinary_inh, takesOrdinary_imm8, takesOrdinary_imm16,
    takesOrdinary_ixI]
  all_goals intros; exact ⟨rfl, rfl, rfl⟩

/-- The read class on B, D and the index registers. -/
theorem rowC_to_rowF_ordinary : ∀ p ∈ rowC ++ rowD ++ rowE ++ rowF, TakesOrdinary 5 p := by
  simp only [rowC, rowD, rowE, rowF, List.forall_mem_append, List.forall_mem_cons, List.not_mem_nil,
    IsEmpty.forall_iff, implies_true, and_true]
  and_intros
  all_goals apply_rules [takesOrdinary_inh, takesOrdinary_imm8, takesOrdinary_imm16, takesOrdinary_ixI]
  all_goals intros; exact ⟨rfl, rfl, rfl⟩

theorem page1Table_sound : ∀ x ∈ page1Table.zipIdx, SoundOnPage1 x := by
  have ordinary (l : List (Parser Instr)) (k : Nat) (h : ∀ p ∈ l, TakesOrdinary 5 p) :
      ∀ x ∈ l.zipIdx k, SoundOnPage1 x := fun x hx => soundOnPage1_ordinary (h _ (List.fst_mem_of_mem_zipIdx hx))
  have hordinary := List.forall_mem_append.2 ⟨List.forall_mem_append.2 ⟨List.forall_mem_append.2
    ⟨row2_to_row5_ordinary, row6_row7_ordinary⟩, row8_to_rowB_ordinary⟩, rowC_to_rowF_ordinary⟩
  have hsplit : page1Table = row0 ++ row1 ++ (row2 ++ row3 ++ row4 ++ row5 ++ (row6 ++ row7) ++
      (row8 ++ row9 ++ rowA ++ rowB) ++ (rowC ++ rowD ++ rowE ++ rowF)) := by
    simp only [page1Table, List.append_assoc]
  rw [hsplit, List.zipIdx_append, List.zipIdx_append, List.forall_mem_append, List.forall_mem_append]
  exact ⟨⟨row0_sound, row1_sound⟩, ordinary _ _ hordinary⟩

/-- The map has a place for every byte. -/
theorem length_page1Table : page1Table.length = 256 := by
  simp only [page1Table, row0, row1, row2, row3, row4, row5, row6, row7, row8, row9, rowA, rowB, rowC, rowD, rowE, rowF,
    List.length_append, List.length_cons, List.length_nil]

theorem page1At_sound (b : Byte) : Takes 5 (fun l => Decoded (b :: l)) (page1At b) := by
  have h := getD_of_zipIdx page1Table_sound (k := b.toNat) (by rw [length_page1Table]; exact b.isLt) (inh .nop)
  rwa [SoundOnPage1, BitVec.ofNat_toNat, BitVec.setWidth_eq] at h

/-! ## The decoder -/

/-- Whatever bytes the decoder is given it takes one to six of them and answers an instruction that they stand for, or
there are fewer than six. -/
theorem takes_decode : Takes 6 Decoded decode := takes_byteThen page1At_sound

theorem decode_total {bs : List Byte} (h : 6 ≤ bs.length) : ∃ i rest, decode bs = .ok (i, rest) := by
  obtain ⟨pre, rest, i, hd, -⟩ | ⟨-, hlt⟩ := takes_decode bs
  · exact ⟨i, rest, hd⟩
  · omega

theorem decoded_of_decode {bs rest : List Byte} {i : Instr} (h : decode bs = .ok (i, rest)) :
    ∃ pre, bs = pre ++ rest ∧ pre.length ≤ 6 ∧ Decoded pre i := by
  obtain ⟨pre, rest', i', hd, hbs, hle, hi⟩ | ⟨he, -⟩ := takes_decode bs
  · cases h.symm.trans hd
    exact ⟨pre, hbs, hle, hi⟩
  · cases h.symm.trans he

/-- No instruction takes no bytes. -/
theorem length_lt_of_decode {bs rest : List Byte} {i : Instr} (h : decode bs = .ok (i, rest)) :
    rest.length < bs.length := by
  cases bs with
  | nil => cases h
  | cons b bs =>
    obtain ⟨pre, rest', i', hp, hbs, -, -⟩ | ⟨he, -⟩ := page1At_sound b bs
    · cases h.symm.trans hp
      simp only [hbs, List.length_append, List.length_cons]
      omega
    · cases h.symm.trans he

/-- A traced instruction is decoded from its own bytes, and from no others. -/
theorem decode_eq_traced_iff {bs rest : List Byte} {i : Instr} (ht : i.isTraced = true) :
    decode bs = .ok (i, rest) ↔ i.wf = true ∧ i.canon = i ∧ bs = encode i ++ rest := by
  constructor
  · intro h
    obtain ⟨pre, hbs, -, hwf, hcanon, henc⟩ := decoded_of_decode h
    exact ⟨hwf, hcanon, by rw [henc ht, hbs]⟩
  · rintro ⟨hwf, hcanon, rfl⟩
    have h := reads_encode hwf rest
    rwa [hcanon] at h

theorem isTrapNumber_iff (tn : Byte) :
    isTrapNumber tn = true ↔ (0x30 ≤ tn.toNat ∧ tn.toNat ≤ 0x39) ∨ 0x40 ≤ tn.toNat := by
  simp [isTrapNumber]

/-- The 202 trap numbers: 10 and 192 of the 256 bytes (R105). -/
theorem trapNumbers_count :
    ((List.range 256).filter fun n => decide ((0x30 ≤ n ∧ n ≤ 0x39) ∨ 0x40 ≤ n)).length = 202 := by
  have hsplit : List.range 256 =
      List.range' 0 48 ++ (List.range' 48 10 ++ (List.range' 58 6 ++ List.range' 64 192)) := by
    rw [List.range_eq_range', List.range'_append_1 (s := 58), List.range'_append_1 (s := 48),
      List.range'_append_1 (s := 0)]
  rw [hsplit, List.filter_append, List.filter_append, List.filter_append, List.filter_eq_nil_iff.2,
    List.filter_eq_self.2, List.filter_eq_nil_iff.2, List.filter_eq_self.2]
  · simp only [List.nil_append, List.length_append, List.length_range']
  all_goals
    intro n hn
    rw [List.mem_range'_1] at hn
    simp only [decide_eq_true_eq]
    omega
/-- Settles O2: the decoder's reader takes at most six bytes, and TRAP is traced. -/
theorem decodingIsTotalAndWellFormed : Obligations.DecodingIsTotalAndWellFormed := by
  unfold Obligations.DecodingIsTotalAndWellFormed
  refine ⟨⟨fun bs => decode_total, fun bs i rest h => ?_⟩, fun tn rest htn => ?_, fun b tn bs rest h => ?_,
    trapNumbers_count⟩
  · obtain ⟨pre, hbs, hle, hwf, hcanon, -⟩ := decoded_of_decode h
    have hlt := length_lt_of_decode h
    rw [hbs, List.length_append] at hlt
    exact ⟨hwf, hcanon, pre, hbs, by omega, hle⟩
  · exact reads_trap ((isTrapNumber_iff tn).2 htn) rest
  · obtain ⟨hwf, -, hbs⟩ := (decode_eq_traced_iff rfl).1 h
    cases hbs
    exact ⟨rfl, rfl, (isTrapNumber_iff _).1 hwf⟩

/-! ## The encodings of R135, in numbers -/

theorem isIndirectXb_iff (xb : Byte) :
    isIndirectXb xb = true ↔ 224 ≤ xb.toNat ∧ (xb.toNat % 8 = 3 ∨ xb.toNat % 8 = 7) := by decide +revert

theorem isLongXb_iff (xb : Byte) :
    isLongXb xb = true ↔ 224 ≤ xb.toNat ∧ (xb.toNat % 8 < 4 ∨ xb.toNat % 8 = 7) := by decide +revert

theorem isUndefinedLb_iff (lb : Byte) :
    isUndefinedLb lb = true ↔ 192 ≤ lb.toNat ∨ lb.toNat % 8 = 2 ∨ lb.toNat % 8 = 3 := by decide +revert

/-- A byte among numbers, as a byte among bytes. -/
theorem contains_toNat_iff (l : List Byte) (b : Byte) : (l.map BitVec.toNat).contains b.toNat = true ↔ b ∈ l := by
  rw [List.contains_iff_mem, List.mem_map_of_injective fun _ _ => BitVec.eq_of_toNat_eq]

theorem UndefEnc.wf_page1_iff (op xb : Byte) : (UndefEnc.page1 op xb).wf = true ↔
    op ∈ [(0x0C : Byte), 0x0D, 0x0E, 0x0F, 0x19, 0x1A, 0x1B] ∧ isIndirectXb xb = true := by
  rw [← contains_toNat_iff, ← Bool.and_eq_true]
  rfl

theorem UndefEnc.wf_page2_iff (op xb : Byte) : (UndefEnc.page2 op xb).wf = true ↔
    op ∈ [(0x00 : Byte), 0x01, 0x02, 0x05, 0x08, 0x09, 0x0A, 0x0D, 0x3D, 0x3F] ∧ isLongXb xb = true := by
  rw [← contains_toNat_iff, ← Bool.and_eq_true]
  rfl

theorem UndefEnc.wf_second_iff (op xb1 xb2 : Byte) : (UndefEnc.second op xb1 xb2).wf = true ↔
    op ∈ [(0x02 : Byte), 0x0A] ∧ ¬ isLongXb xb1 = true ∧ isLongXb xb2 = true := by
  rw [← contains_toNat_iff, Bool.not_eq_true, ← Bool.not_eq_true', ← and_assoc, ← Bool.and_eq_true, ← Bool.and_eq_true]
  rfl

theorem decode_eq_undefined_iff (e : UndefEnc) (bs rest : List Byte) :
    decode bs = .ok (.undefined e, rest) ↔ e.wf = true ∧ bs = encUndef e ++ rest := by
  rw [decode_eq_traced_iff rfl]
  exact and_congr_right fun _ => and_iff_right rfl

open Machine in
/-- Settles O59: an undefined encoding is traced, and `UndefEnc.wf` says which there are. -/
theorem undefinedEncodingsAreRefused : Obligations.UndefinedEncodingsAreRefused := by
  unfold Obligations.UndefinedEncodingsAreRefused
  refine ⟨fun e s => rfl, fun e bs rest => ?_⟩
  rw [decode_eq_undefined_iff]
  cases e with
  | page1 op xb =>
    rw [UndefEnc.wf_page1_iff, isIndirectXb_iff, and_assoc]
    rfl
  | page2 op xb =>
    rw [UndefEnc.wf_page2_iff, isLongXb_iff, and_assoc]
    rfl
  | second op xb1 xb2 =>
    rw [UndefEnc.wf_second_iff, isLongXb_iff, isLongXb_iff, List.mem_pair, and_assoc, and_assoc]
    rfl
  | loop lb =>
    rw [UndefEnc.wf, isUndefinedLb_iff]
    rfl

end Sys2Proof
end

section
/-! PROOF. Translated mnemonics (30_encoding.md R141, R143), and words written out. -/

namespace Sys2Proof

open Machine

/-- A translated mnemonic is assembled as its core instruction. -/
theorem encode_canon (i : Instr) : encode i = encode i.canon := by cases i <;> exact rfl

/-- It has the effect of its core instruction; DES and INS are LEAS with an offset of −1 and 1 (41_arith.md R248, R254).
-/
theorem exec_canon (i : Instr) (s : State) : exec i s = exec i.canon s := by
  have hminus : sext16 (31 : BitVec 5) = -1 := by decide
  have hplus : sext16 (1 : BitVec 5) = 1 := by decide
  cases i
  case des =>
    change Host.Outcome.next (s.setSp (s.sp - 1)) = .next (s.setSp (s.sp + sext16 (31 : BitVec 5)))
    rw [hminus, BitVec.sub_eq_add_neg]
  case ins =>
    change Host.Outcome.next (s.setSp (s.sp + 1)) = .next (s.setSp (s.sp + sext16 (1 : BitVec 5)))
    rw [hplus]
  all_goals exact rfl

/-- Settles O60: every instruction has the bytes and the effect of its core instruction. -/
theorem translatedMnemonicsRunAsTheirCore : Obligations.TranslatedMnemonicsRunAsTheirCore := by
  unfold Obligations.TranslatedMnemonicsRunAsTheirCore
  refine ⟨fun m s => ⟨encode_canon (.lsl m), exec_canon (.lsl m) s⟩, fun i j s h => ?_,
    fun i s => ⟨encode_canon i, exec_canon i s⟩⟩
  have hj : i.canon = j := by
    simp only [List.mem_cons, Prod.mk.injEq, List.not_mem_nil, or_false] at h
    rcases h with ⟨rfl, rfl⟩ | ⟨rfl, rfl⟩ | ⟨rfl, rfl⟩ <;> exact rfl
  exact hj ▸ ⟨encode_canon i, exec_canon i s⟩

/-- A word that is the encoding of a core instruction decodes to it. -/
theorem decode_word {l : List Byte} {i : Instr} (hl : encode i = l) (hwf : i.wf = true) (hcanon : i.canon = i) :
    decode l = .ok (i, []) := by
  have h := reads_encode hwf []
  rwa [hl, hcanon, List.append_nil] at h

/-- Settles O3: each word is the encoding of its instruction. -/
theorem sampleWordsDecodeAsTheOpcodeMapSays : Obligations.SampleWordsDecodeAsTheOpcodeMapSays := by
  unfold Obligations.SampleWordsDecodeAsTheOpcodeMapSays
  exact ⟨decode_word rfl rfl rfl, decode_word rfl rfl rfl, decode_word rfl rfl rfl, decode_word rfl rfl rfl,
    decode_word rfl rfl rfl, decode_word rfl rfl rfl, decode_word rfl rfl rfl, decode_word rfl rfl rfl,
    decode_word rfl rfl rfl, decode_word rfl rfl rfl⟩

end Sys2Proof
end

section
/-! PROOF. Effective addresses, operands and register updates of the addressing modes (30_encoding.md R112 to R125). -/

namespace Sys2Proof.Machine

/-! ## Sums of an address and an offset -/

theorem add_eq_ofNat (a b : Word) : a + b = BitVec.ofNat 16 (a.toNat + b.toNat) := by
  rw [BitVec.ofNat_add, BitVec.ofNat_toNat, BitVec.ofNat_toNat, BitVec.setWidth_eq, BitVec.setWidth_eq]

/-- A base plus the offset of an auto-modify form: 0 to 7 are +1 to +8, 8 to 15 are −8 to −1 (R108). -/
theorem add_autoDelta (a : Word) (n : BitVec 4) : a + autoDelta n =
    BitVec.ofInt 16 (a.toNat + if n.toNat < 8 then (n.toNat : Int) + 1 else (n.toNat : Int) - 16) := by
  have hdelta : autoDelta n = BitVec.ofInt 16 (if n.toNat < 8 then (n.toNat : Int) + 1 else (n.toNat : Int) - 16) := by
    decide +revert
  rw [BitVec.ofInt_add, ← hdelta, BitVec.ofInt_natCast, BitVec.ofNat_toNat, BitVec.setWidth_eq]

theorem dirEaOf_eq (d : Byte) : dirEaOf d = BitVec.ofNat 16 d.toNat := (BitVec.ofNat_toNat 16 d).symm

/-! ## The forms that are not indirect -/

section
variable (s : State) (p : Word)

/-- Accumulator offsets are unsigned (R123). -/
theorem idxEa_acc_toNat (r : IReg) :
    (idxEa s p (.acc r .a)).toNat = ((baseValue s p r).toNat + s.a.toNat) % 65536 ∧
    (idxEa s p (.acc r .b)).toNat = ((baseValue s p r).toNat + s.b.toNat) % 65536 ∧
    (idxEa s p (.acc r .d)).toNat = ((baseValue s p r).toNat + s.a.toNat * 256 + s.b.toNat) % 65536 := by
  simp only [idxEa, accOffset, BitVec.toNat_add, toNat_zext16, toNat_d, Nat.add_assoc, Nat.reducePow, and_self]

/-- Pre-modify adds before the access, post-modify after it (R122). -/
theorem idxEa_auto (r : AReg) (n : BitVec 4) :
    idxEa s p (.auto r true n) = areg s r ∧ idxEa s p (.auto r false n) = areg s r + autoDelta n := ⟨rfl, rfl⟩

/-- An auto-modify form changes its register alone. -/
theorem idxUpdate_auto (r : AReg) (post : Bool) (n : BitVec 4) :
    idxUpdate s (.auto r post n) = setAreg s (areg s r + autoDelta n) r := rfl

/-- The registers that a compare sees are those of the start but for a pre-modify (R122, R125). -/
theorem src16Access_of_ne {o : Src16} (h : ∀ r n, o ≠ .ix (.direct (.idx (.auto r false n)))) :
    src16Access s o = s := by
  rcases o with v | d | a | ((i | _ | _) | _ | _)
  case ix.direct.idx =>
    cases i with
    | auto r post n =>
      cases post with
      | false => exact absurd rfl (h r n)
      | true => rfl
    | off5 r n => rfl
    | acc r o => rfl
  all_goals rfl

/-! ## The indirect forms (R124) -/

/-- The pointer at base plus a 16-bit constant. -/
theorem idxIEa_ind16_toNat (r : IReg) (n : Word) :
    let q := BitVec.ofNat 16 ((baseValue s s.pc r).toNat + n.toNat)
    (idxIEa s (.ind16 r n)).toNat = 256 * (read8 s .pointer q).toNat + (read8 s .pointer (q + 1)).toNat := by
  intro q
  rw [idxIEa, idxPointer, add_eq_ofNat, toNat_read16]

/-- The pointer at base plus D. -/
theorem idxIEa_indD_toNat (r : IReg) :
    let q := BitVec.ofNat 16 ((baseValue s s.pc r).toNat + s.a.toNat * 256 + s.b.toNat)
    (idxIEa s (.indD r)).toNat = 256 * (read8 s .pointer q).toNat + (read8 s .pointer (q + 1)).toNat := by
  intro q
  have hq : idxPointer s r s.d = q := by rw [idxPointer, add_eq_ofNat, toNat_d, ← Nat.add_assoc]
  rw [idxIEa, hq, toNat_read16]

end

/-- Settles O20: the sums above, and the equations of each operand class, which take their indexed form's. -/
theorem effectiveAddresses : Obligations.EffectiveAddresses := by
  unfold Obligations.EffectiveAddresses
  refine ⟨⟨fun s p => ⟨rfl, rfl, rfl, rfl, rfl, rfl, rfl⟩, fun s i m => ⟨rfl, rfl, rfl, rfl, rfl, rfl⟩,
      fun s m => ⟨rfl, rfl, rfl, rfl, rfl, rfl, rfl, rfl⟩,
      fun s a => ⟨rfl, rfl, rfl, rfl, rfl, rfl, rfl, rfl, rfl, rfl⟩, fun s v w => ⟨rfl, rfl, rfl, rfl⟩,
      fun s o => ⟨?_, src16Access_of_ne s⟩⟩,
    ⟨fun s p r n => ⟨add_sext16 _ n, rfl⟩, fun s r n => ⟨add_sext16 _ n, rfl⟩, fun s r n => ⟨add_eq_ofNat _ n, rfl⟩,
      fun s p r => ?_, fun s p r n => ?_⟩,
    fun s r n => ⟨idxIEa_ind16_toNat s r n, rfl⟩, fun s r => ⟨idxIEa_indD_toNat s r, rfl⟩, fun s d => ?_⟩
  · rintro ⟨r, n, rfl⟩
    rfl
  · obtain ⟨ha, hb, hd⟩ := idxEa_acc_toNat s p r
    exact ⟨ha, hb, hd, fun o => rfl⟩
  · intro delta moved
    have hmoved : areg s r + autoDelta n = moved := add_autoDelta (areg s r) n
    obtain ⟨hpost, hpre⟩ := idxEa_auto s p r n
    refine ⟨hpost, hpre.trans hmoved, fun post => ?_⟩
    rw [idxUpdate_auto, hmoved]
    cases r <;> rfl
  · rw [← dirEaOf_eq]
    exact ⟨toNat_zext16 d, toNat_zext16 d, rfl, rfl, rfl, rfl, rfl, rfl⟩

end Sys2Proof.Machine
end

section
/-! PROOF. No instruction but BGND writes the background debug registers (60_exceptions.md R701 to R704), and none ends
a TRACE1 (R706): one lemma for each operation of the model that has cases, then the instructions. -/

namespace Sys2Proof.Machine

/-! ## What a frame already says -/

theorem OnlyStores.bdm_eq {s t : State} (h : OnlyStores s t) : t.bdm = s.bdm := by
  rw [OnlyStores] at h
  rw [h]

theorem OnlyIndexes.bdm_eq {s t : State} (h : OnlyIndexes s t) : t.bdm = s.bdm := by
  rw [OnlyIndexes] at h
  rw [h]

section
variable (s : State)

/-! ## Stack, page register and exceptions -/

@[simp] theorem writePpage_bdm (v : Byte) : (writePpage s v).bdm = s.bdm := by rw [writePpage_eq]
@[simp] theorem push8_bdm (v : Byte) : (push8 s v).bdm = s.bdm := (onlyStores_push8 s v).bdm_eq
@[simp] theorem push16_bdm (v : Word) : (push16 s v).bdm = s.bdm := (onlyStores_push16 s v).bdm_eq
@[simp] theorem pushFrame_bdm (rtn : Word) : (pushFrame s rtn).bdm = s.bdm := (onlyStores_pushFrame s rtn).bdm_eq
@[simp] theorem takeException_bdm (vector rtn : Word) (isXirq : Bool) :
    (takeException s vector rtn isXirq).bdm = s.bdm := by simp [takeException_eq]
@[simp] theorem returnFromException_bdm : (returnFromException s).bdm = s.bdm := rfl

/-! ## Operands -/

@[simp] theorem idxUpdate_bdm (m : Idx) : (idxUpdate s m).bdm = s.bdm := (onlyIndexes_idxUpdate s m).bdm_eq
@[simp] theorem idxXUpdate_bdm (m : IdxX) : (idxXUpdate s m).bdm = s.bdm := (onlyIndexes_idxXUpdate s m).bdm_eq
@[simp] theorem idxIUpdate_bdm (m : IdxI) : (idxIUpdate s m).bdm = s.bdm := (onlyIndexes_idxIUpdate s m).bdm_eq
@[simp] theorem src8Update_bdm (o : Src8) : (src8Update s o).bdm = s.bdm := (onlyIndexes_src8Update s o).bdm_eq
@[simp] theorem src16Update_bdm (o : Src16) : (src16Update s o).bdm = s.bdm := (onlyIndexes_src16Update s o).bdm_eq
@[simp] theorem mem3Update_bdm (m : Mem3) : (mem3Update s m).bdm = s.bdm := (onlyIndexes_mem3Update s m).bdm_eq
@[simp] theorem mem2Update_bdm (m : Mem2) : (mem2Update s m).bdm = s.bdm := (onlyIndexes_mem2Update s m).bdm_eq
@[simp] theorem bitUpdate_bdm (m : BitEa) : (bitUpdate s m).bdm = s.bdm := (onlyIndexes_bitUpdate s m).bdm_eq
@[simp] theorem callUpdate_bdm (d : CallDest) : (callUpdate s d).bdm = s.bdm := (onlyIndexes_callUpdate s d).bdm_eq
@[simp] theorem moveSource8Update_bdm (m : MovSrc8) : (moveSource8Update s m).bdm = s.bdm :=
  (onlyIndexes_moveSource8Update s m).bdm_eq
@[simp] theorem moveSource16Update_bdm (m : MovSrc16) : (moveSource16Update s m).bdm = s.bdm :=
  (onlyIndexes_moveSource16Update s m).bdm_eq
@[simp] theorem moveDestUpdate_bdm (m : MovDst) : (moveDestUpdate s m).bdm = s.bdm :=
  (onlyIndexes_moveDestUpdate s m).bdm_eq

/-! ## Stores, branches and transfers -/

@[simp] theorem storeByte_bdm (v : Byte) (m : Mem3) : (storeByte v m s).bdm = s.bdm := by simp [storeByte]
@[simp] theorem storeWord_bdm (v : Word) (m : Mem3) : (storeWord v m s).bdm = s.bdm := by simp [storeWord]
@[simp] theorem modifyByte_bdm (f : Byte → Alu 8) (m : Mem2) : (modifyByte f m s).bdm = s.bdm := by simp [modifyByte]
@[simp] theorem modifyBits_bdm (f : Byte → Byte) (m : BitEa) : (modifyBits f m s).bdm = s.bdm := by simp [modifyBits]

@[simp] theorem branchIf_bdm (cond : Bool) (offset : Word) : (branchIf cond offset s).bdm = s.bdm := by
  cases cond <;> rfl
@[simp] theorem incCounter_bdm (r : LoopReg) : (incCounter s r).bdm = s.bdm := by cases r <;> rfl
@[simp] theorem decCounter_bdm (r : LoopReg) : (decCounter s r).bdm = s.bdm := by cases r <;> rfl
@[simp] theorem branchIfZero_bdm (r : LoopReg) (rel : BitVec 9) : (branchIfZero r rel s).bdm = s.bdm :=
  branchIf_bdm s _ _
@[simp] theorem branchIfNonzero_bdm (r : LoopReg) (rel : BitVec 9) : (branchIfNonzero r rel s).bdm = s.bdm :=
  branchIf_bdm s _ _

@[simp] theorem setTreg8_bdm (v : Byte) (r : TReg) : (setTreg8 s v r).bdm = s.bdm := by cases r <;> rfl
@[simp] theorem setTreg16_bdm (v : Word) (first : Bool) (r : TReg) : (setTreg16 s v first r).bdm = s.bdm := by
  cases r with
  | tmp => cases first <;> rfl
  | _ => rfl

@[simp] theorem transfer_bdm (src dst : TReg) : (transfer src dst s).bdm = s.bdm := by
  unfold transfer
  split <;> simp

@[simp] theorem exchange_bdm (r1 r2 : TReg) : (exchange r1 r2 s).bdm = s.bdm := by
  simp only [exchange]
  split
  · simp
  · simp
  · split <;> simp
  · split <;> simp

/-! ## REV, REVW and WAV: each pass, then any number of passes -/

@[simp] theorem enterRules_bdm : (enterRules s).bdm = s.bdm := by rw [enterRules_eq]

@[simp] theorem antecedent_bdm (m : Byte) : (antecedent s m).bdm = s.bdm := by
  unfold antecedent
  split <;> simp

@[simp] theorem consequent_bdm (addr : Word) (m : Byte) : (consequent s addr m).bdm = s.bdm := by
  unfold consequent
  split <;> simp

@[simp] theorem revPass_bdm : (revPass s).bdm = s.bdm := by
  simp only [revPass]
  repeat' split
  all_goals simp [finished, nextDraw, consume, toggleV]

@[simp] theorem revwPass_bdm : (revwPass s).bdm = s.bdm := by
  simp only [revwPass]
  repeat' split
  all_goals simp [finished, nextDraw, consume, toggleV]

@[simp] theorem wavPass_bdm : (wavPass s).bdm = s.bdm := by
  simp only [wavPass]
  split <;> rfl

@[simp] theorem endRev_bdm : (endRev s).bdm = s.bdm := by
  simp only [endRev]
  split <;> rfl

@[simp] theorem endRevw_bdm : (endRevw s).bdm = s.bdm := by
  simp only [endRevw]
  split <;> rfl

@[simp] theorem endWav_bdm : (endWav s).bdm = s.bdm := by
  unfold endWav
  split <;> rfl

end

theorem ruleLoop_bdm {pass : State → State} (h : ∀ s, (pass s).bdm = s.bdm) (n : Nat) (s : State) :
    (ruleLoop pass n s).bdm = s.bdm := by
  induction n generalizing s with
  | zero => rfl
  | succ n ih =>
    simp only [ruleLoop]
    split
    · rfl
    · split
      · exact h s
      · exact (ih (pass s)).trans (h s)

@[simp] theorem wavLoop_bdm (n : Nat) (s : State) : (wavLoop n s).bdm = s.bdm := by
  induction n generalizing s with
  | zero => rfl
  | succ n ih =>
    simp only [wavLoop]
    split
    · exact wavPass_bdm s
    · exact (ih (wavPass s)).trans (wavPass_bdm s)

@[simp] theorem runRev_bdm (s : State) : (runRev s).bdm = s.bdm :=
  (endRev_bdm _).trans (ruleLoop_bdm revPass_bdm _ s)

@[simp] theorem runRevw_bdm (s : State) : (runRevw s).bdm = s.bdm :=
  (endRevw_bdm _).trans (ruleLoop_bdm revwPass_bdm _ s)

@[simp] theorem runWav_bdm (s : State) : (runWav s).bdm = s.bdm := (endWav_bdm _).trans (wavLoop_bdm _ s)

/-! ## The instructions -/

/-- No instruction but BGND writes the background debug registers. -/
theorem exec_bdm {i : Instr} (hi : i ≠ .bgnd) (s : State) : Yields (fun t => t.bdm = s.bdm) (exec i s) := by
  cases i with
  | bgnd => exact absurd rfl hi
  | undefined e => exact yields_refused _ _
  | daa =>
    change Yields _ (execDaa s)
    unfold execDaa
    split <;> exact yields_next rfl
  | ediv =>
    change Yields _ (execEdiv s)
    simp only [execEdiv]
    repeat' split
    all_goals exact yields_next rfl
  | edivs =>
    change Yields _ (execEdivs s)
    simp only [execEdivs]
    repeat' split
    all_goals exact yields_next rfl
  | fdiv =>
    change Yields _ (execFdiv s)
    simp only [execFdiv]
    split <;> exact yields_next rfl
  | idiv =>
    change Yields _ (execIdiv s)
    simp only [execIdiv]
    split <;> exact yields_next rfl
  | idivs =>
    change Yields _ (execIdivs s)
    simp only [execIdivs]
    repeat' split
    all_goals exact yields_next rfl
  | stop =>
    change Yields _ (execStop s)
    unfold execStop
    split
    · exact yields_next rfl
    · exact yields_next (pushFrame_bdm s s.pc)
  | _ =>
    refine yields_next ?_
    simp [State.addFlags, State.stepFlags, State.zeroFlag, addToA, addToB, subFromA, subFromB, compare, andCcr, orCcr,
      modifyA, modifyB, modifyD, emacsFlags, setYD, productFlags]

/-- No instruction ends a TRACE1 or begins one: BGND keeps the note of it too. -/
theorem exec_tracing (i : Instr) (s : State) : Yields (fun t => t.bdm.tracing = s.bdm.tracing) (exec i s) := by
  by_cases hi : i = .bgnd
  · subst hi
    refine yields_next ?_
    cases hb : bdmEnabled s with
    | true => rw [enterBdm_enabled hb]
    | false => rw [enterBdm_disabled hb]
  · exact (exec_bdm hi s).imp fun t ht => by rw [ht]

end Sys2Proof.Machine
end

section
/-! PROOF. The step at a boundary where nothing but an instruction is to be done: the bytes that are fetched, the choice
of the action, the action and its end (00_scope.md R19, 20_memory.md R63, R84, 70_reset_and_hazards.md R740). -/

namespace Sys2Proof.Machine

/-! ## Fetch -/

theorem fetchAddresses_eq (s : State) : fetchAddresses s = (List.range 6).map fun k => s.pc + BitVec.ofNat 16 k := by
  simp [fetchAddresses, List.range_succ]

theorem fetchBytes_eq (s : State) :
    fetchBytes s = (List.range 6).map fun k => read8 s .fetch (s.pc + BitVec.ofNat 16 k) := by
  rw [fetchBytes, fetchAddresses_eq, List.map_map]
  rfl

/-- The instruction at the PC is what the decoder reads there, and its length what the decoder takes. -/
theorem fetchInstr_ok_iff (s : State) (i : Instr) (n : Nat) : fetchInstr s = .ok (i, n) ↔
    ∃ rest, decode (fetchBytes s) = .ok (i, rest) ∧ n = 6 - rest.length := by
  rw [fetchInstr]
  cases decode (fetchBytes s) with
  | error e => simp
  | ok p =>
    simp only [Except.ok.injEq, Prod.ext_iff]
    exact ⟨fun ⟨hi, hn⟩ => ⟨p.2, ⟨hi, rfl⟩, hn.symm⟩, fun ⟨rest, ⟨hi, hr⟩, hn⟩ => ⟨hi, by rw [hn, ← hr]⟩⟩

theorem fetchStale_iff (s : State) {n : Nat} (hn : n ≤ 6) :
    fetchStale s n = true ↔ ∃ k < n, slotAt s (s.pc + BitVec.ofNat 16 k) ∈ s.stale := by
  simp only [fetchStale, fetchAddresses_eq, ← List.map_take, List.take_range, Nat.min_eq_left hn, List.any_map,
    List.any_eq_true, List.mem_range, Function.comp_apply, List.contains_iff_mem]

/-- The queue does not see the schedule. -/
theorem fetchInstr_schedule (s : State) (l : List (List Event)) :
    fetchInstr { s with schedule := l } = fetchInstr s := by
  have hbytes : fetchBytes { s with schedule := l } = fetchBytes s :=
    List.map_congr_left fun a _ =>
    read8_congr (s := s) (t := { s with schedule := l }) rfl rfl rfl rfl rfl rfl rfl rfl .fetch a
  rw [fetchInstr, fetchInstr, hbytes]

/-! ## Rule lists that overlap their outputs (45_fuzzy_minmax_mac_tbl.md R412) -/

/-- The bytes of the next element of the rule list, from X on. -/
theorem overlapsOutputs_iff (s : State) (bytes : List Word) : overlapsOutputs s bytes = true ↔
    ∃ q ∈ s.outputs, (∃ k ∈ bytes, q = slotAt s (s.x + k)) ∨ q ∈ s.consumed := by
  simp only [overlapsOutputs, Bool.or_eq_true, List.any_eq_true, List.contains_iff_mem, List.mem_map]
  constructor
  · rintro (⟨q, ⟨k, hk, rfl⟩, hq⟩ | ⟨q, hq, hc⟩)
    · exact ⟨_, hq, .inl ⟨k, hk, rfl⟩⟩
    · exact ⟨q, hq, .inr hc⟩
  · rintro ⟨q, hq, ⟨k, hk, rfl⟩ | hc⟩
    · exact .inl ⟨_, ⟨k, hk, rfl⟩, hq⟩
    · exact .inr ⟨q, hq, hc⟩

/-- An element of REV is a byte, one of REVW a word. -/
theorem ruleListOverlap_iff (s : State) : ruleListOverlap s = true ↔
    (s.progress = .rev ∨ s.progress = .revw) ∧ ∃ q ∈ s.outputs, q = slotAt s s.x ∨
      s.progress = .revw ∧ q = slotAt s (s.x + 1) ∨ q ∈ s.consumed := by
  rw [ruleListOverlap]
  cases hp : s.progress with
  | rev => simp [overlapsOutputs_iff]
  | revw => simp [overlapsOutputs_iff, or_assoc]
  | wav | none => simp

theorem ruleListOverlap_of_none {s : State} (h : s.progress = .none) : ruleListOverlap s = false := by
  rw [ruleListOverlap, h]

/-! ## The boundary -/

theorem boundary_error {s : State} {tags : List TagKind} {r : Refusal} (h : boundaryAction s tags = .error r) :
    boundary s tags = .refused r := by rw [boundary, h]

theorem boundary_ok {s : State} {tags : List TagKind} {a : Action} (h : boundaryAction s tags = .ok a) :
    boundary s tags = mapNext (finish s a) (act (prepare s a) a) := by rw [boundary, h]

theorem boundaryAction_overlap {s : State} {tags : List TagKind} (hrun : s.run = .running)
    (ho : ruleListOverlap s = true) : boundaryAction s tags = .error .ruleListOverlapsOutputs := by
  simp only [boundaryAction, hrun, runningAction, ho, if_true]

/-- Where nothing is asked for, no interrupt is to be taken and nothing is in progress, an instruction is fetched. -/
theorem boundaryAction_fetch {s : State} (hrun : s.run = .running) (hreq : s.bdm.request = false)
    (hprog : s.progress = .none) (hint : interruptHere s = none) : boundaryAction s [] = fetchAction s := by
  simp [boundaryAction, hrun, runningAction, ruleListOverlap_of_none hprog, hreq, hint, continueAction, hprog,
    effectiveTag]

theorem fetchAction_eq {s : State} {i : Instr} {n : Nat} (h : fetchInstr s = .ok (i, n)) : fetchAction s =
    if fetchStale s n then .error .storeIntoPrefetchWindow else .ok (.instr i n) := by simp only [fetchAction, h]

/-- Without an event the step is its boundary. -/
theorem step_of_no_event {s : State} (h : s.schedule.headD [] = []) :
    step s = mapNext closeStep (boundary { s with schedule := s.schedule.tail } []) := oneStep_of_no_event h

/-- The action of the boundary that the step comes to, once its events are off the schedule. -/
theorem boundaryAction_instr {s : State} {i : Instr} {n : Nat} (hrun : s.run = .running) (hreq : s.bdm.request = false)
    (hprog : s.progress = .none) (hint : interruptHere s = none) (hf : fetchInstr s = .ok (i, n))
    (l : List (List Event)) : boundaryAction { s with schedule := l } [] =
      if fetchStale s n then .error .storeIntoPrefetchWindow else .ok (.instr i n) := by
  have ha : boundaryAction { s with schedule := l } [] = fetchAction { s with schedule := l } :=
    boundaryAction_fetch hrun hreq hprog hint
  rw [ha, fetchAction_eq ((fetchInstr_schedule s l).trans hf)]
  rfl

/-- The step runs the instruction that it fetches. -/
theorem step_instr {s : State} {i : Instr} {n : Nat} (hev : s.schedule.headD [] = []) (hrun : s.run = .running)
    (hreq : s.bdm.request = false) (hprog : s.progress = .none) (hint : interruptHere s = none)
    (hf : fetchInstr s = .ok (i, n)) (hstale : fetchStale s n = false) :
    step s = mapNext closeStep (mapNext (retire s.flagI (isRti i))
      (exec i { s with schedule := s.schedule.tail, pc := s.pc + BitVec.ofNat 16 n })) := by
  have ha := boundaryAction_instr hrun hreq hprog hint hf s.schedule.tail
  rw [hstale, if_neg Bool.false_ne_true] at ha
  rw [step_of_no_event hev, boundary_ok ha]
  rfl

/-! ## The end of an instruction -/

/-- Outside a TRACE1 the end of an instruction notes the I-clear delay alone. -/
theorem retire_of_not_tracing {t : State} (h : t.bdm.tracing = false) (iWas rti : Bool) :
    endTrace (noteIDelay iWas rti t) =
      { t with iDelay := if t.progress = .none then iWas && !t.flagI && !rti else t.iDelay } := by
  by_cases hp : t.progress = .none
  · simp [noteIDelay, hp, endTrace, h]
  · simp [noteIDelay, hp, endTrace]

/-- Settles O9: the decoder's bytes, the refusals of the boundary, and the step as the instruction with its end. -/
theorem stepRunsTheDecodedInstruction : Obligations.StepRunsTheDecodedInstruction := by
  unfold Obligations.StepRunsTheDecodedInstruction
  refine ⟨fun s i n => ?_, fun s n hn => fetchStale_iff s hn, fun s i n hev hrun hreq hprog hint hf hstale => ?_,
    fun s => ⟨ruleListOverlap_iff s, fun hev hrun ho => ?_⟩, fun s i n hev hrun hreq hprog hint hf hstale => ?_⟩
  · rw [fetchInstr_ok_iff, fetchBytes_eq]
  · have ha := boundaryAction_instr hrun hreq hprog hint hf s.schedule.tail
    rw [hstale, if_pos rfl] at ha
    rw [step_of_no_event hev, boundary_error ha, mapNext]
  · have ha : boundaryAction { s with schedule := s.schedule.tail } [] = .error .ruleListOverlapsOutputs :=
      boundaryAction_overlap hrun ho
    rw [step_of_no_event hev, boundary_error ha, mapNext]
  · have hstep := step_instr hev hrun hreq hprog hint hf hstale
    refine ⟨fun t ht => ?_, fun r hr => ?_, fun htr t ht => ?_⟩
    · rw [hstep, ht]
      rfl
    · rw [hstep, hr]
      rfl
    · exact retire_of_not_tracing ((exec_tracing i _ t ht).trans htr) s.flagI (isRti i)

end Sys2Proof.Machine
end

section
/-! PROOF. Loads, stores and moves (40_load_store_move.md R160 to R175, R195 to R198): each is the register update of
its operands, which leaves memory as it is, then at most one store, then registers and flags. -/

namespace Sys2Proof.Machine

/-! ## States that share memory and map -/

/-- `t` has the memory of `s` and all that the memory map depends on. -/
def SameMemory (s t : State) : Prop :=
  t.mem = s.mem ∧ t.cfg = s.cfg ∧ t.windows = s.windows ∧ t.ppage = s.ppage ∧ t.dpage = s.dpage ∧ t.epage = s.epage

theorem OnlyIndexes.sameMemory {s t : State} (h : OnlyIndexes s t) : SameMemory s t := by
  obtain ⟨-, -, -, -, hm, hc, hw, hp, hd, he, -⟩ := h.fields
  exact ⟨hm, hc, hw, hp, hd, he⟩

theorem SameMemory.refl (s : State) : SameMemory s s := ⟨rfl, rfl, rfl, rfl, rfl, rfl⟩

theorem SameMemory.trans {s t u : State} (h : SameMemory s t) (g : SameMemory t u) : SameMemory s u := by
  obtain ⟨hm, hc, hw, hp, hd, he⟩ := h
  obtain ⟨gm, gc, gw, gp, gd, ge⟩ := g
  exact ⟨gm.trans hm, gc.trans hc, gw.trans hw, gp.trans hp, gd.trans hd, ge.trans he⟩

theorem sameMemory_setA (s : State) (v : Byte) : SameMemory s (s.setA v) := ⟨rfl, rfl, rfl, rfl, rfl, rfl⟩
theorem sameMemory_setB (s : State) (v : Byte) : SameMemory s (s.setB v) := ⟨rfl, rfl, rfl, rfl, rfl, rfl⟩
theorem sameMemory_setD (s : State) (v : Word) : SameMemory s (s.setD v) := ⟨rfl, rfl, rfl, rfl, rfl, rfl⟩
theorem sameMemory_setX (s : State) (v : Word) : SameMemory s (s.setX v) := ⟨rfl, rfl, rfl, rfl, rfl, rfl⟩
theorem sameMemory_setY (s : State) (v : Word) : SameMemory s (s.setY v) := ⟨rfl, rfl, rfl, rfl, rfl, rfl⟩
theorem sameMemory_setSp (s : State) (v : Word) : SameMemory s (s.setSp v) := ⟨rfl, rfl, rfl, rfl, rfl, rfl⟩
theorem sameMemory_nzv0 {w : Nat} (s : State) (v : BitVec w) : SameMemory s (s.nzv0 v) :=
  ⟨rfl, rfl, rfl, rfl, rfl, rfl⟩

/-- A store of the CPU is a write, and remembered beside memory. -/
theorem sameMemory_logStore (s : State) (e : Store) : SameMemory s (logStore s e) := ⟨rfl, rfl, rfl, rfl, rfl, rfl⟩

section
variable {s t u r : State}

theorem SameMemory.readsSame (h : SameMemory s t) : ReadsSame s t := by
  obtain ⟨hm, hc, hw, hp, hd, he⟩ := h
  exact readsSame_of hm hc hw hp hd he

theorem SameMemory.locate (h : SameMemory s t) (a : Word) : locate t a = locate s a := by
  obtain ⟨-, hc, hw, hp, hd, he⟩ := h
  exact locate_congr hc hw hp hd he a

theorem SameMemory.slotAt (h : SameMemory s t) (a : Word) : slotAt t a = slotAt s a := by
  rw [Machine.slotAt, Machine.slotAt, h.locate]

theorem SameMemory.isPageRegister (h : SameMemory s t) (a : Word) : isPageRegister t a ↔ isPageRegister s a := by
  rw [isPageRegister_iff, isPageRegister_iff, h.locate]

/-! What is said of a store from `u` to `t` holds from `s` to `r` too, where `s` and `u` share memory, and so do `t`
and `r`. -/

theorem Stored.of_sameMemory {a : Word} {v : Byte} (h : Stored u t a v) (hs : SameMemory s u) (hr : SameMemory t r) :
    Stored s r a v :=
  fun k hk => (hr.readsSame a).trans (h k ((hs.locate a).trans hk))

theorem StoredWord.of_sameMemory {a v : Word} (h : StoredWord u t a v) (hs : SameMemory s u) (hr : SameMemory t r) :
    StoredWord s r a v := by
  intro hp hq
  obtain ⟨hhi, hlo⟩ := h ((hs.isPageRegister a).not.2 hp) ((hs.isPageRegister (a + 1)).not.2 hq)
  rw [hs.slotAt, hs.slotAt] at hhi
  exact ⟨fun hne => (hhi hne).of_sameMemory hs hr, hlo.of_sameMemory hs hr⟩

theorem StoresOnly.of_sameMemory {as : List Word} (h : StoresOnly u t as) (hs : SameMemory s u) (hr : SameMemory t r) :
    StoresOnly s r as := by
  have hread := hs.readsSame
  have hread' := hr.readsSame
  simp only [StoresOnly, hs.locate, hs.slotAt, hs.isPageRegister, hread _] at h
  obtain ⟨sm, -, -, sp, sd, se⟩ := hs
  obtain ⟨rm, -, -, rp, rd, re⟩ := hr
  rw [sm, sp, sd, se, ← rm, ← rp, ← rd, ← re] at h
  simpa only [StoresOnly, hread' _] using h

end

/-! ## Flags -/

/-- N and Z of a value and V = 0, in a state with the flags of `s`. -/
theorem flagsNZV_nzv0 {s t : State} (h : t.ccr = s.ccr) {w : Nat} (v : BitVec w) :
    FlagsNZV s (t.nzv0 v) (negative v) (zero v) false := by
  apply flags_putNZV
  rw [State.nzv0_ccr, h, isNeg_eq_negative, isZero_eq_zero]

theorem OnlyIndexes.ccr_eq {s t : State} (h : OnlyIndexes s t) : t.ccr = s.ccr := by
  rw [OnlyIndexes] at h
  rw [h]

/-! ## Loads -/

/-- What every load does beside its register: the update of the operand leads from `s` to `u`, the write of the
register from `u` to `r`; the flags are those of the value and no read has changed. -/
theorem load_flags_and_reads {s u r : State} (hu : OnlyIndexes s u) (hr : SameMemory u r) (hc : r.ccr = u.ccr) {w : Nat}
    (v : BitVec w) : FlagsNZV s (r.nzv0 v) (negative v) (zero v) false ∧ ReadsSame s (r.nzv0 v) :=
  ⟨flagsNZV_nzv0 (hc.trans hu.ccr_eq) v, ((hu.sameMemory.trans hr).trans (sameMemory_nzv0 r v)).readsSame⟩

/-- Settles O21: a load writes its register after the operand's update, so the loaded value wins, and the flags and
the frame are those of every load. -/
theorem loadsPutTheOperandInTheRegister : Obligations.LoadsPutTheOperandInTheRegister := by
  unfold Obligations.LoadsPutTheOperandInTheRegister
  have byteLoad (s : State) (o : Src8) {r : State} (hr : SameMemory (src8Update s o) r)
      (hc : r.ccr = (src8Update s o).ccr) := load_flags_and_reads (onlyIndexes_src8Update s o) hr hc (src8 s o)
  have wordLoad (s : State) (o : Src16) {r : State} (hr : SameMemory (src16Update s o) r)
      (hc : r.ccr = (src16Update s o).ccr) := load_flags_and_reads (onlyIndexes_src16Update s o) hr hc (src16 s o)
  refine ⟨fun s o => ⟨_, rfl, ?_⟩, fun s o => ⟨_, rfl, ?_⟩, fun s o => ⟨_, rfl, ?_⟩, fun s o => ⟨_, rfl, ?_⟩,
    fun s o => ⟨_, rfl, ?_⟩, fun s o => ⟨_, rfl, ?_⟩⟩
  · obtain ⟨hflags, hreads⟩ := byteLoad s o (sameMemory_setA _ _) rfl
    exact ⟨⟨rfl, hflags⟩, hreads, rfl⟩
  · obtain ⟨hflags, hreads⟩ := byteLoad s o (sameMemory_setB _ _) rfl
    exact ⟨⟨rfl, hflags⟩, hreads, rfl⟩
  · obtain ⟨hflags, hreads⟩ := wordLoad s o (sameMemory_setD _ _) rfl
    exact ⟨⟨joinBytes_hiByte_loByte _, hflags⟩, hreads, rfl⟩
  · obtain ⟨hflags, hreads⟩ := wordLoad s o (sameMemory_setSp _ _) rfl
    exact ⟨rfl, hflags, hreads, rfl⟩
  · obtain ⟨hflags, hreads⟩ := wordLoad s o (sameMemory_setX _ _) rfl
    exact ⟨rfl, hflags, hreads, rfl⟩
  · obtain ⟨hflags, hreads⟩ := wordLoad s o (sameMemory_setY _ _) rfl
    exact ⟨rfl, hflags, hreads, rfl⟩

/-! ## Stores -/

section
variable {s u t : State}

/-- A byte stored after a change of index registers, and before a change that leaves memory. -/
theorem stored_store8 {a : Word} {v : Byte} (hu : OnlyIndexes s u) (ht : SameMemory (store8 u a v) t) :
    Stored s t a v ∧ StoresOnly s t [a] := by
  have hwrite : SameMemory (write8 u a v) t := (sameMemory_logStore _ _).trans ht
  exact ⟨(stored_write8 u a v).of_sameMemory hu.sameMemory hwrite,
    (storesOnly_write8 u a v).of_sameMemory hu.sameMemory hwrite⟩

/-- The same for a word. -/
theorem storedWord_store16 {a v : Word} (hu : OnlyIndexes s u) (ht : SameMemory (store16 u a v) t) :
    StoredWord s t a v ∧ StoresOnly s t [a, a + 1] := by
  have hwrite : SameMemory (write16 u a v) t := (sameMemory_logStore _ _).trans ht
  exact ⟨(storedWord_write16 u a v).of_sameMemory hu.sameMemory hwrite,
    (storesOnly_write16 u a v).of_sameMemory hu.sameMemory hwrite⟩

/-- A store, then flags. -/
theorem OnlyStores.setCcr (h : OnlyStores u t) (c : Byte) : OnlyStores { u with ccr := c } (t.setCcr c) :=
  congrArg (State.setCcr · c) h

end

/-- All that the store of a byte does (R161). -/
theorem storeByte_spec (v : Byte) (m : Mem3) (s : State) :
    let t := storeByte v m s
    Stored s t (mem3Ea s m) v ∧ StoresOnly s t [mem3Ea s m] ∧ FlagsNZV s t (negative v) (zero v) false ∧
      OnlyStores { mem3Update s m with ccr := t.ccr } t := by
  have hu : OnlyIndexes s (mem3Update s m) := onlyIndexes_mem3Update s m
  obtain ⟨hstored, honly⟩ := stored_store8 (a := mem3Ea s m) (v := v) hu (sameMemory_nzv0 _ v)
  have hccr : (store8 (mem3Update s m) (mem3Ea s m) v).ccr = s.ccr := (store8_ccr _ _ _).trans hu.ccr_eq
  exact ⟨hstored, honly, flagsNZV_nzv0 hccr v, (onlyStores_store8 _ _ v).setCcr _⟩

/-- All that the store of a word does (R161). -/
theorem storeWord_spec (v : Word) (m : Mem3) (s : State) :
    let t := storeWord v m s
    StoredWord s t (mem3Ea s m) v ∧ StoresOnly s t [mem3Ea s m, mem3Ea s m + 1] ∧
      FlagsNZV s t (negative v) (zero v) false ∧ OnlyStores { mem3Update s m with ccr := t.ccr } t := by
  have hu : OnlyIndexes s (mem3Update s m) := onlyIndexes_mem3Update s m
  obtain ⟨hstored, honly⟩ := storedWord_store16 (a := mem3Ea s m) (v := v) hu (sameMemory_nzv0 _ v)
  have hccr : (store16 (mem3Update s m) (mem3Ea s m) v).ccr = s.ccr := (store16_ccr _ _ _).trans hu.ccr_eq
  exact ⟨hstored, honly, flagsNZV_nzv0 hccr v, (onlyStores_store16 _ _ v).setCcr _⟩

/-- The operands that pre-modify a register (D8). -/
theorem preModifies_iff (r : AReg) (m : Mem3) :
    preModifies r m = true ↔ ∃ n, m = .ix (.direct (.idx (.auto r false n))) := by
  constructor
  · intro h
    unfold preModifies at h
    split at h
    next r' n =>
      rw [beq_iff_eq] at h
      exact ⟨n, by rw [h]⟩
    next => cases h
  · rintro ⟨n, rfl⟩
    exact beq_self_eq_true r

/-- Where it is not pre-modified, the register itself is stored. -/
theorem storedRegister_of_not_preModifies {r : AReg} {m : Mem3} (h : preModifies r m = false) (s : State) :
    storedRegister r m s = areg s r := by
  rw [storedRegister, h, if_neg Bool.false_ne_true]

/-- Settles O22: every store is `storeByte` or `storeWord` of its register, or of `storedRegister`, which is the
register but for a pre-modify. -/
theorem storesWriteTheRegisterAtTheAddress : Obligations.StoresWriteTheRegisterAtTheAddress := by
  unfold Obligations.StoresWriteTheRegisterAtTheAddress
  refine ⟨preModifies_iff, fun s m => ⟨_, rfl, storeByte_spec s.a m s⟩, fun s m => ⟨_, rfl, storeByte_spec s.b m s⟩,
    fun s m => ⟨_, rfl, s.d, fun _ => rfl, storeWord_spec s.d m s⟩, fun s m => ?_, fun s m => ?_, fun s m => ?_⟩
  · exact ⟨_, rfl, _, fun h => storedRegister_of_not_preModifies h s, storeWord_spec _ m s⟩
  · exact ⟨_, rfl, _, fun h => storedRegister_of_not_preModifies h s, storeWord_spec _ m s⟩
  · exact ⟨_, rfl, _, fun h => storedRegister_of_not_preModifies h s, storeWord_spec _ m s⟩

/-! ## Moves -/

/-- The value of PC in a postbyte of a move (R196). -/
theorem movePc_eq (s : State) (k : Word) : movePc s k = if s.cfg.variant = .hcs12 then s.pc else s.pc + k := by
  unfold movePc
  cases s.cfg.variant <;> rfl

/-- Updates of index registers, one after the other. -/
theorem OnlyIndexes.trans {s t u : State} (h : OnlyIndexes s t) (g : OnlyIndexes t u) : OnlyIndexes s u := by
  rw [OnlyIndexes] at *
  rw [h] at g
  exact g

/-- Settles O25: a move stores after the updates of its source and of its destination, which change index registers
alone. -/
theorem movesCopyTheSourceToTheDestination : Obligations.MovesCopyTheSourceToTheDestination := by
  unfold Obligations.MovesCopyTheSourceToTheDestination
  refine ⟨movePc_eq, fun a w v m => ⟨rfl, rfl, rfl, rfl, rfl, rfl, rfl, rfl⟩, fun s dst a w k v m =>
    ⟨rfl, rfl, rfl, rfl, rfl, rfl, rfl, rfl, rfl, rfl, rfl, rfl, rfl, rfl, rfl, rfl⟩,
    fun s src dst => ⟨_, rfl, ?_⟩, fun s src dst => ⟨_, rfl, ?_⟩⟩
  · have hu := (onlyIndexes_moveSource8Update s src).trans (onlyIndexes_moveDestUpdate _ dst)
    obtain ⟨hstored, honly⟩ := stored_store8 hu (SameMemory.refl _)
    exact ⟨hstored, honly, onlyStores_store8 _ _ _⟩
  · have hu := (onlyIndexes_moveSource16Update s src).trans (onlyIndexes_moveDestUpdate _ dst)
    obtain ⟨hstored, honly⟩ := storedWord_store16 hu (SameMemory.refl _)
    exact ⟨hstored, honly, onlyStores_store16 _ _ _⟩

end Sys2Proof.Machine
end

section
/-! PROOF. Transfers and exchanges (40_load_store_move.md R180 to R194): what a register of opcode $B7 reads as, what a
write to one leaves in all, and from these each row of the glossary's table. -/

namespace Sys2Proof.Machine

/-! ## Widths -/

theorem narrow_of_mem {r : TReg} (h : r ∈ [TReg.a, .b]) : is8 r = true ∧ r ≠ .tmp := by
  decide +revert

theorem wide_of_mem {r : TReg} (h : r ∈ [TReg.d, .x, .y, .sp]) : is8 r = false ∧ r ≠ .tmp := by
  decide +revert

theorem index_of_mem {r : TReg} (h : r ∈ [TReg.x, .y, .sp]) : is8 r = false ∧ r ≠ .tmp ∧ r ≠ .d := by
  decide +revert

/-- X, Y and SP share no bits with an accumulator, and no 16-bit register with the CCR. -/
theorem tregOverlap_index : ∀ r ∈ [TReg.x, .y, .sp], ∀ q ∈ [TReg.a, .b], tregOverlap r q = false := by decide

theorem tregOverlap_wide_ccr : ∀ r ∈ [TReg.d, .x, .y, .sp], tregOverlap r .ccr = false := by decide

/-- Two 16-bit registers share bits only where they are one. -/
theorem tregOverlap_wide : ∀ r ∈ [TReg.d, .x, .y, .sp], ∀ q ∈ [TReg.d, .x, .y, .sp], r ≠ q →
    tregOverlap r q = false := by decide

/-! ## What a register reads as -/

/-- The low eight bits of a word's signed number. -/
theorem ofInt_toInt_eq_loByte (v : Word) : BitVec.ofInt 8 v.toInt = loByte v := by
  apply BitVec.eq_of_toNat_eq
  rw [toNat_loByte, BitVec.toNat_ofInt, BitVec.toInt_eq_toNat_cond]
  split <;> omega

/-- Sign extension keeps the signed number. -/
theorem toInt_sext16 (v : Byte) : (sext16 v).toInt = v.toInt := BitVec.toInt_signExtend_of_le (by decide)

@[simp] theorem loByte_sext16 (v : Byte) : loByte (sext16 v) = v := by
  rw [← ofInt_toInt_eq_loByte, toInt_sext16, BitVec.ofInt_toInt]

section
variable (s : State) (tmp : Word)

/-- The 8-bit value of a register is the low byte of its 16-bit value (R187). -/
theorem treg8_eq_loByte (r : TReg) : treg8 s tmp r = loByte (treg16 s tmp r) := by
  cases r with
  | a | b | ccr => exact (loByte_sext16 _).symm
  | d => exact (loByte_joinBytes s.a s.b).symm
  | tmp | x | y | sp => rfl

/-- As a signed number: an 8-bit register is sign-extended (R187, R188). -/
theorem toInt_treg16 {r : TReg} (h : r ≠ .tmp) : (treg16 s tmp r).toInt = tregSigned s r := by
  cases r with
  | a | b | ccr => exact toInt_sext16 _
  | tmp => exact absurd rfl h
  | d | x | y | sp => rfl

/-- The low byte of a register's number (R187). -/
theorem toNat_treg8 {r : TReg} (h : r ≠ .tmp) : (treg8 s tmp r).toNat = tregVal s r % 256 := by
  have byte (v : Byte) : v.toNat = v.toNat % 256 := (Nat.mod_eq_of_lt v.isLt).symm
  cases r with
  | a | b | ccr => exact byte _
  | tmp => exact absurd rfl h
  | d => exact (byte s.b).trans (Nat.mul_add_mod_self_right _ _ _).symm
  | x | y | sp => exact toNat_loByte _

/-- The number of an 8-bit register. -/
theorem toNat_treg8_of_is8 {r : TReg} (h : is8 r = true) : (treg8 s tmp r).toNat = tregVal s r := by
  cases r with
  | a | b | ccr => rfl
  | tmp | d | x | y | sp => cases h

/-- The number of a 16-bit register. -/
theorem toNat_treg16_of_not_is8 {r : TReg} (h : is8 r = false) (ht : r ≠ .tmp) :
    (treg16 s tmp r).toNat = tregVal s r := by
  cases r with
  | a | b | ccr => cases h
  | tmp => exact absurd rfl ht
  | d => exact toNat_d s
  | x | y | sp => rfl

/-- The low byte, as the statements write it. -/
theorem treg8_eq_ofNat {r : TReg} (h : r ≠ .tmp) : treg8 s tmp r = BitVec.ofNat 8 (tregVal s r) := by
  apply BitVec.eq_of_toNat_eq
  rw [toNat_treg8 s tmp h, BitVec.toNat_ofNat]

end

/-! ## What a write leaves -/

section
variable (s : State)

theorem tregVal_setTreg8_same (v : Byte) {r : TReg} (h : r ∈ [TReg.a, .b]) : tregVal (setTreg8 s v r) r = v.toNat := by
  simp only [List.mem_cons, List.not_mem_nil, or_false] at h
  obtain rfl | rfl := h <;> rfl

theorem tregVal_setD (v : Word) : tregVal (s.setD v) .d = v.toNat :=
  (toNat_d (s.setD v)).symm.trans (congrArg BitVec.toNat (joinBytes_hiByte_loByte v))

theorem tregVal_setTreg16_same (v : Word) (first : Bool) {r : TReg} (h : is8 r = false) (ht : r ≠ .tmp) :
    tregVal (setTreg16 s v first r) r = v.toNat := by
  cases r with
  | a | b | ccr => cases h
  | tmp => exact absurd rfl ht
  | d => exact tregVal_setD s v
  | x | y | sp => rfl

/-- A write changes no register but those that share bits with its own. -/
theorem tregVal_setTreg8_of_disjoint (v : Byte) {k r : TReg} (h : tregOverlap k r = false) :
    tregVal (setTreg8 s v r) k = tregVal s k := by
  cases r with
  | a => cases k with
    | a | d => cases h
    | _ => rfl
  | b => cases k with
    | b | d => cases h
    | _ => rfl
  | ccr => cases k with
    | ccr => cases h
    | _ => rfl
  | _ => rfl

theorem tregVal_setTreg16_of_disjoint (v : Word) (first : Bool) {k r : TReg} (h : tregOverlap k r = false) :
    tregVal (setTreg16 s v first r) k = tregVal s k := by
  cases r with
  | d => cases k with
    | a | b | d => cases h
    | _ => rfl
  | x => cases k with
    | x => cases h
    | _ => rfl
  | y => cases k with
    | y => cases h
    | _ => rfl
  | sp => cases k with
    | sp => cases h
    | _ => rfl
  | tmp => cases first <;> cases k <;> rfl
  | _ => rfl

end

/-! ## Transfers (R187, R188) -/

/-- What TFR leaves (R187), for every pair of registers. -/
theorem transferred_transfer (src dst : TReg) (s : State) :
    Transferred s (transfer src dst s) (treg16 s (readTmp3 s) src).toInt dst := by
  have low : BitVec.ofInt 8 (treg16 s (readTmp3 s) src).toInt = treg8 s (readTmp3 s) src := by
    rw [ofInt_toInt_eq_loByte, treg8_eq_loByte]
  have whole : BitVec.ofInt 16 (treg16 s (readTmp3 s) src).toInt = treg16 s (readTmp3 s) src := BitVec.ofInt_toInt
  cases dst with
  | a => exact congrArg s.setA low.symm
  | b => exact congrArg s.setB low.symm
  | ccr => exact ⟨low ▸ loadsCcr_transfer s src, rfl⟩
  | tmp => rfl
  | d =>
    refine ⟨?_, rfl⟩
    have hd : tregVal (transfer src .d s) .d = (treg16 s (readTmp3 s) src).toNat := tregVal_setD s _
    rw [hd, BitVec.toInt_eq_toNat_cond]
    split <;> omega
  | x => exact congrArg s.setX whole.symm
  | y => exact congrArg s.setY whole.symm
  | sp => exact congrArg s.setSp whole.symm

/-- Settles O23: TAB and TBA are a copy with the flags of a load; each other transfer is `transfer`, which leaves the
low bits of its source's number. -/
theorem transfersTruncateAndSignExtend : Obligations.TransfersTruncateAndSignExtend := by
  unfold Obligations.TransfersTruncateAndSignExtend
  refine ⟨fun s => ⟨_, rfl, rfl, flagsNZV_nzv0 rfl s.a, rfl⟩, fun s => ⟨_, rfl, rfl, flagsNZV_nzv0 rfl s.b, rfl⟩,
    fun s src dst => ⟨_, rfl, _, fun h => toInt_treg16 s _ h, transferred_transfer src dst s⟩, fun s src dst => ?_,
    fun s => ?_, fun s => rfl, fun s => rfl, fun s => rfl, fun s => rfl, fun s => rfl⟩
  · have hsrc : src.toTReg ≠ .tmp := by cases src <;> decide
    exact ⟨_, rfl, toInt_treg16 s (readTmp3 s) hsrc ▸ transferred_transfer src.toTReg dst.toTReg s⟩
  · have ha : TReg.a ≠ .tmp := by decide
    exact ⟨_, rfl, toInt_treg16 s (readTmp3 s) ha ▸ transferred_transfer .a .ccr s⟩

/-! ## Exchanges (R189) -/

section
variable {r q : TReg}

/-- The glossary's table, by the widths of the two registers: its four quarters, each without its exception. -/
theorem exchange_narrow_narrow (s : State) (hr : is8 r = true) (hq : is8 q = true) :
    exchange r q s = setTreg8 (setTreg8 s (treg8 s (readTmp2 s) q) r) (treg8 s (readTmp3 s) r) q := by
  simp only [exchange, hr, hq]

theorem exchange_wide_wide (s : State) (hr : is8 r = false) (hq : is8 q = false) :
    exchange r q s =
      setTreg16 (setTreg16 s (treg16 s (readTmp2 s) q) true r) (treg16 s (readTmp3 s) r) false q := by
  simp only [exchange, hr, hq]

theorem exchange_narrow_wide (s : State) (hr : is8 r = true) (hq : is8 q = false) (hne : ¬ (r = .a ∧ q = .d)) :
    exchange r q s =
      setTreg8 (setTreg16 s (joinBytes 0x00 (treg8 s (readTmp3 s) r)) false q) (treg8 s (readTmp2 s) q) r := by
  simp only [exchange, hr, hq, if_neg hne]

theorem exchange_wide_narrow (s : State) (hr : is8 r = false) (hq : is8 q = true) (hne : ¬ (r = .d ∧ q = .a)) :
    exchange r q s =
      setTreg8 (setTreg16 s (joinBytes (if q = .a then 0x00 else 0xFF) (treg8 s (readTmp2 s) q)) true r)
        (treg8 s (readTmp3 s) r) q := by
  simp only [exchange, hr, hq, if_neg hne]

/-- The exception A,D. -/
theorem exchange_a_d (s : State) : exchange .a .d s = s.setD (joinBytes 0x00 s.a) := rfl

end

/-- `t` is `s` but for the registers of TFR and EXG. -/
def OnlyTregs (s t : State) : Prop :=
  t = { s with a := t.a, b := t.b, x := t.x, y := t.y, sp := t.sp, ccr := t.ccr, tmp2 := t.tmp2, tmp3 := t.tmp3 }

theorem OnlyTregs.trans {s t u : State} (h : OnlyTregs s t) (g : OnlyTregs t u) : OnlyTregs s u := by
  rw [OnlyTregs] at *
  rw [h] at g
  exact g

theorem onlyTregs_setTreg8 (s : State) (v : Byte) (r : TReg) : OnlyTregs s (setTreg8 s v r) := by cases r <;> rfl

theorem onlyTregs_setTreg16 (s : State) (v : Word) (first : Bool) (r : TReg) : OnlyTregs s (setTreg16 s v first r) := by
  cases r with
  | tmp => cases first <;> rfl
  | _ => rfl

/-- Nothing outside the register set changes. -/
theorem onlyTregs_exchange (s : State) (r q : TReg) : OnlyTregs s (exchange r q s) := by
  simp only [exchange]
  split
  · exact (onlyTregs_setTreg8 _ _ _).trans (onlyTregs_setTreg8 _ _ _)
  · exact (onlyTregs_setTreg16 _ _ _ _).trans (onlyTregs_setTreg16 _ _ _ _)
  · split
    · rfl
    · exact (onlyTregs_setTreg16 _ _ _ _).trans (onlyTregs_setTreg8 _ _ _)
  · split
    · rfl
    · exact (onlyTregs_setTreg16 _ _ _ _).trans (onlyTregs_setTreg8 _ _ _)

/-- What overlaps neither operand keeps its value. -/
theorem tregVal_exchange_of_disjoint (s : State) {k r q : TReg} (hr : tregOverlap k r = false)
    (hq : tregOverlap k q = false) : tregVal (exchange r q s) k = tregVal s k := by
  simp only [exchange]
  split
  · rw [tregVal_setTreg8_of_disjoint _ _ hq, tregVal_setTreg8_of_disjoint _ _ hr]
  · rw [tregVal_setTreg16_of_disjoint _ _ _ hq, tregVal_setTreg16_of_disjoint _ _ _ hr]
  · split
    next h =>
      obtain ⟨rfl, rfl⟩ := h
      exact tregVal_setTreg16_of_disjoint s _ false hq
    next => rw [tregVal_setTreg8_of_disjoint _ _ hr, tregVal_setTreg16_of_disjoint _ _ _ hq]
  · split
    next h =>
      obtain ⟨rfl, rfl⟩ := h
      have hb : tregOverlap k .b = false := by
        cases k with
        | b | d => cases hr
        | _ => rfl
      exact (tregVal_setTreg8_of_disjoint (r := .b) (s.setA s.b) s.a hb).trans
        (tregVal_setTreg8_of_disjoint (r := .a) s s.b hq)
    next => rw [tregVal_setTreg8_of_disjoint _ _ hq, tregVal_setTreg16_of_disjoint _ _ _ hr]

section
variable {r q : TReg} (s : State)

/-- A and B exchange. -/
theorem tregVal_exchange_accumulators (hr : r ∈ [TReg.a, .b]) (hq : q ∈ [TReg.a, .b]) :
    tregVal (exchange r q s) r = tregVal s q ∧ tregVal (exchange r q s) q = tregVal s r := by
  simp only [List.mem_cons, List.not_mem_nil, or_false] at hr hq
  obtain rfl | rfl := hr <;> obtain rfl | rfl := hq <;> exact ⟨rfl, rfl⟩

/-- 16-bit registers exchange; two different ones share no bits. -/
theorem tregVal_exchange_wide (hr : r ∈ [TReg.d, .x, .y, .sp]) (hq : q ∈ [TReg.d, .x, .y, .sp]) :
    tregVal (exchange r q s) r = tregVal s q ∧ tregVal (exchange r q s) q = tregVal s r := by
  obtain ⟨hr8, hrt⟩ := wide_of_mem hr
  obtain ⟨hq8, hqt⟩ := wide_of_mem hq
  have hsecond : tregVal (exchange r q s) q = tregVal s r := by
    rw [exchange_wide_wide s hr8 hq8, tregVal_setTreg16_same _ _ _ hq8 hqt, toNat_treg16_of_not_is8 s _ hr8 hrt]
  refine ⟨?_, hsecond⟩
  by_cases h : r = q
  · rw [h] at hsecond ⊢
    exact hsecond
  · rw [exchange_wide_wide s hr8 hq8, tregVal_setTreg16_of_disjoint _ _ _ (tregOverlap_wide r hr q hq h),
      tregVal_setTreg16_same _ _ _ hr8 hrt, toNat_treg16_of_not_is8 s _ hq8 hqt]

/-- An 8-bit first operand goes into a 16-bit second with a high byte of $00. -/
theorem tregVal_exchange_narrow_wide (hr : is8 r = true) (hq : is8 q = false) (hqt : q ≠ .tmp)
    (hd : tregOverlap q r = false) : tregVal (exchange r q s) q = tregVal s r := by
  have hne : ¬ (r = .a ∧ q = .d) := by
    rintro ⟨rfl, rfl⟩
    cases hd
  rw [exchange_narrow_wide s hr hq hne, tregVal_setTreg8_of_disjoint _ _ hd, tregVal_setTreg16_same _ _ _ hq hqt,
    toNat_joinBytes, toNat_treg8_of_is8 s _ hr]
  exact Nat.zero_add _

/-- A or B as first operand takes the low byte of a 16-bit second. -/
theorem tregVal_exchange_narrow_wide_first (hr : r ∈ [TReg.a, .b]) (hq : is8 q = false) (hqt : q ≠ .tmp)
    (hne : q ≠ .d) : tregVal (exchange r q s) r = tregVal s q % 256 := by
  rw [exchange_narrow_wide s (narrow_of_mem hr).1 hq fun h => hne h.2, tregVal_setTreg8_same _ _ hr,
    toNat_treg8 s _ hqt]

/-- An 8-bit second operand goes into a 16-bit first with a high byte of $00 for A and $FF for B and CCR. -/
theorem tregVal_exchange_wide_narrow (hr : is8 r = false) (hrt : r ≠ .tmp) (hq : is8 q = true)
    (hd : tregOverlap r q = false) :
    tregVal (exchange r q s) r = (if q = .a then 0 else 0xFF00) + tregVal s q := by
  have hne : ¬ (r = .d ∧ q = .a) := by
    rintro ⟨rfl, rfl⟩
    cases hd
  rw [exchange_wide_narrow s hr hq hne, tregVal_setTreg8_of_disjoint _ _ hd, tregVal_setTreg16_same _ _ _ hr hrt,
    toNat_joinBytes, toNat_treg8_of_is8 s _ hq]
  split <;> rfl

/-- A or B as second operand takes the low byte of a 16-bit first. -/
theorem tregVal_exchange_wide_narrow_second (hr : is8 r = false) (hrt : r ≠ .tmp) (hne : r ≠ .d)
    (hq : q ∈ [TReg.a, .b]) : tregVal (exchange r q s) q = tregVal s r % 256 := by
  rw [exchange_wide_narrow s hr (narrow_of_mem hq).1 fun h => hne h.1, tregVal_setTreg8_same _ _ hq,
    toNat_treg8 s _ hrt]

/-- An accumulator takes the CCR, whichever of the two is the first operand. -/
theorem tregVal_exchange_ccr (hr : r ∈ [TReg.a, .b]) :
    tregVal (exchange .ccr r s) r = tregVal s .ccr ∧ tregVal (exchange r .ccr s) r = tregVal s .ccr := by
  simp only [List.mem_cons, List.not_mem_nil, or_false] at hr
  obtain rfl | rfl := hr <;> exact ⟨rfl, rfl⟩

/-- Between the CCR and another register the CCR takes the low byte of the other, under the X-bit rule. -/
theorem loadsCcr_exchange (hr : r ≠ .tmp) :
    LoadsCcr s (exchange .ccr r s) (BitVec.ofNat 8 (tregVal s r)) ∧
      LoadsCcr s (exchange r .ccr s) (BitVec.ofNat 8 (tregVal s r)) :=
  ⟨treg8_eq_ofNat s (readTmp2 s) hr ▸ loadsCcr_exchange_first s r,
    treg8_eq_ofNat s (readTmp3 s) hr ▸ loadsCcr_exchange_second s r⟩

/-- D with B, where B is written after D: the high byte is that of the table, the low byte B. -/
theorem tregVal_setB_setD (hi lo : Byte) :
    tregVal ((s.setD (joinBytes hi lo)).setB lo) .d = hi.toNat * 256 + lo.toNat := by
  rw [tregVal, State.setB_a, State.setD_a, State.setB_b, hiByte_joinBytes]

end

/-! ## D with an index register (R193, R194), and the whole table -/

/-- A word written to D, as the statements write it. -/
theorem setD_eq (s : State) (v : Word) :
    s.setD v = { s with a := BitVec.ofNat 8 (v.toNat / 256), b := BitVec.ofNat 8 v.toNat } := by
  rw [State.setD, hiByte_eq, loByte_eq]

theorem d_eq_ofNat (s : State) : s.d = BitVec.ofNat 16 (s.a.toNat * 256 + s.b.toNat) := by
  rw [← toNat_d, BitVec.ofNat_toNat, BitVec.setWidth_eq]

/-- XGDX and XGDY: D takes the index register, which takes D. -/
theorem exchange_d_x (s : State) : exchange .d .x s =
    { s with a := BitVec.ofNat 8 (s.x.toNat / 256), b := BitVec.ofNat 8 s.x.toNat,
             x := BitVec.ofNat 16 (s.a.toNat * 256 + s.b.toNat) } := by
  rw [← d_eq_ofNat]
  exact congrArg (State.setX · s.d) (setD_eq s s.x)

theorem exchange_d_y (s : State) : exchange .d .y s =
    { s with a := BitVec.ofNat 8 (s.y.toNat / 256), b := BitVec.ofNat 8 s.y.toNat,
             y := BitVec.ofNat 16 (s.a.toNat * 256 + s.b.toNat) } := by
  rw [← d_eq_ofNat]
  exact congrArg (State.setY · s.d) (setD_eq s s.y)

/-- Settles O24: the frame of every pair, the two kinds of equal widths, then the rows of unequal widths and of the CCR
in the order of the statement. -/
theorem exchangesFollowTheRegisterTable : Obligations.ExchangesFollowTheRegisterTable := by
  unfold Obligations.ExchangesFollowTheRegisterTable
  refine ⟨fun s r q => ⟨_, rfl, fun k _ hr hq => tregVal_exchange_of_disjoint s hr hq, onlyTregs_exchange s r q,
    tregVal_exchange_accumulators s, tregVal_exchange_wide s, fun hr hq => ?_, fun hr hq => ?_, fun hr hq => ?_,
    fun hr hq => ?_, fun hr hq => ?_, fun hr hq => ?_, fun hr hq => ?_, fun hr hq => ?_, fun hr hq => ?_,
    fun hr hq => ?_, fun hr hq => ?_⟩, fun s => congrArg _ (exchange_d_x s), fun s => congrArg _ (exchange_d_y s)⟩
  · obtain ⟨hq8, hqt, hqd⟩ := index_of_mem hq
    exact ⟨tregVal_exchange_narrow_wide s (narrow_of_mem hr).1 hq8 hqt (tregOverlap_index q hq r hr),
      tregVal_exchange_narrow_wide_first s hr hq8 hqt hqd⟩
  · obtain ⟨hr8, hrt, hrd⟩ := index_of_mem hr
    subst hq
    have hr' := tregVal_exchange_wide_narrow s (q := .a) hr8 hrt rfl (tregOverlap_index r hr .a (by decide))
    exact ⟨hr'.trans (Nat.zero_add _), tregVal_exchange_wide_narrow_second s hr8 hrt hrd (by decide)⟩
  · obtain ⟨hr8, hrt, hrd⟩ := index_of_mem hr
    subst hq
    exact ⟨tregVal_exchange_wide_narrow s hr8 hrt rfl (tregOverlap_index r hr .b (by decide)),
      tregVal_exchange_wide_narrow_second s hr8 hrt hrd (by decide)⟩
  · subst hr
    exact ⟨(tregVal_exchange_ccr s hq).1, (loadsCcr_exchange s (narrow_of_mem hq).2).1⟩
  · subst hq
    exact ⟨(tregVal_exchange_ccr s hr).2, (loadsCcr_exchange s (narrow_of_mem hr).2).2⟩
  · subst hr
    obtain ⟨hq8, hqt⟩ := wide_of_mem hq
    exact ⟨tregVal_exchange_narrow_wide s rfl hq8 hqt (tregOverlap_wide_ccr q hq), (loadsCcr_exchange s hqt).1⟩
  · subst hq
    obtain ⟨hr8, hrt⟩ := wide_of_mem hr
    exact ⟨tregVal_exchange_wide_narrow s hr8 hrt rfl (tregOverlap_wide_ccr r hr), (loadsCcr_exchange s hrt).2⟩
  · subst hr hq
    rw [exchange_a_d, tregVal_setD, toNat_joinBytes]
    exact Nat.zero_add _
  · subst hr hq
    exact ⟨rfl, rfl⟩
  · subst hr hq
    exact (tregVal_setB_setD s 0x00 s.b).trans (Nat.zero_add _)
  · subst hr hq
    exact tregVal_setB_setD s 0xFF s.b

end Sys2Proof.Machine
end

section
/-! PROOF. Addition, subtraction, compare, DAA, the one-operand instructions and the arithmetic of the index registers
(41_arith.md R222 to R272, 42_logic_bit.md R300 to R308, 48_index_stack_lea.md R565 to R568): after the update of the
operand, which leaves A, B, the CCR and memory as they are, each writes one register or byte and the CCR. -/

namespace Sys2Proof.Machine

/-! ## Registers and flags written after the update of an operand -/

theorem sameMemory_setCcr (s : State) (v : Byte) : SameMemory s (s.setCcr v) := ⟨rfl, rfl, rfl, rfl, rfl, rfl⟩

/-- An operand's update, a change that leaves memory, then flags: no read has changed. -/
theorem readsSame_setCcr {s u r : State} (hu : OnlyIndexes s u) (hr : SameMemory u r) (v : Byte) :
    ReadsSame s (r.setCcr v) :=
  ((hu.sameMemory.trans hr).trans (sameMemory_setCcr r v)).readsSame

theorem OnlyIndexes.refl (s : State) : OnlyIndexes s s := rfl

/-- N and Z of a result and V. -/
theorem flagsNZV_of_result {s t : State} {r : Byte} {v : Bool} (h : t.ccr = putNZV s.ccr (isNeg r) (isZero r) v) :
    FlagsNZV s t (negative r) (zero r) v := by
  rw [← isNeg_eq_negative, ← isZero_eq_zero]
  exact flags_putNZV s t _ _ _ h

/-- N and Z of a result, V and C. -/
theorem flagsNZVC_of_result {s t : State} {r : Byte} {v c : Bool}
    (h : t.ccr = putNZVC s.ccr (isNeg r) (isZero r) v c) : FlagsNZVC s t (negative r) (zero r) v c := by
  rw [← isNeg_eq_negative, ← isZero_eq_zero]
  exact flags_putNZVC s t _ _ _ _ h

/-- The sum that ADDA, ADDB, ADCA, ADCB and ABA write, with its flags (R223). -/
theorem isSum_and_sumFlagsH {s r : State} (h : r.ccr = s.ccr) (a m : Byte) (c : Bool) :
    IsSum a m c (addc a m c).r ∧ SumFlagsH s (r.addFlags a m (addc a m c)) a m c (addc a m c).r := by
  refine ⟨isSum_addc (by decide) a m c, sumFlagsH_of_ccr ?_⟩
  rw [State.addFlags, State.setCcr_ccr, h]

/-- The sum that ADDD writes, with its flags (R231). -/
theorem isSum_and_sumFlags {s r : State} (h : r.ccr = s.ccr) (a m : Word) (c : Bool) :
    IsSum a m c (addc a m c).r ∧ SumFlags s (r.nzvc (addc a m c)) a m c (addc a m c).r := by
  refine ⟨isSum_addc (by decide) a m c, sumFlags_of_ccr (by decide) ?_⟩
  rw [State.nzvc_ccr, h]

/-- The difference that a subtraction writes, with its flags (R223). -/
theorem isDiff_and_diffFlags {s r : State} (h : r.ccr = s.ccr) {w : Nat} (hw : 0 < w) (a m : BitVec w) (c : Bool) :
    IsDiff a m c (subb a m c).r ∧ DiffFlags s (r.nzvc (subb a m c)) a m c (subb a m c).r := by
  refine ⟨isDiff_subb hw a m c, diffFlags_of_ccr hw ?_⟩
  rw [State.nzvc_ccr, h]

/-! ## Additions (R224 to R231) -/

section
variable {s u : State} (hu : OnlyIndexes s u)
include hu

/-- Addition into A after the update of an operand. -/
theorem completes_addToA (m : Byte) (c : Bool) : Completes (.next (addToA m c u)) fun t =>
    (IsSum s.a m c t.a ∧ SumFlagsH s t s.a m c t.a) ∧ ReadsSame s t ∧ t = { u with a := t.a, ccr := t.ccr } := by
  obtain ⟨ha, -⟩ := hu.fields
  rw [addToA, ha]
  exact ⟨_, rfl, isSum_and_sumFlagsH (r := u.setA _) hu.ccr_eq s.a m c,
    readsSame_setCcr hu (sameMemory_setA u _) _, rfl⟩

/-- Addition into B after the update of an operand. -/
theorem completes_addToB (m : Byte) (c : Bool) : Completes (.next (addToB m c u)) fun t =>
    (IsSum s.b m c t.b ∧ SumFlagsH s t s.b m c t.b) ∧ ReadsSame s t ∧ t = { u with b := t.b, ccr := t.ccr } := by
  obtain ⟨-, hb, -⟩ := hu.fields
  rw [addToB, hb]
  exact ⟨_, rfl, isSum_and_sumFlagsH (r := u.setB _) hu.ccr_eq s.b m c,
    readsSame_setCcr hu (sameMemory_setB u _) _, rfl⟩

/-- A result with N, Z, V and C put into D after the update of an operand: D reads as the result. -/
theorem completes_setD_nzvc (x : Alu 16) {P : State → Word → Prop} (hP : P ((u.setD x.r).nzvc x) x.r) :
    Completes (.next ((u.setD x.r).nzvc x)) fun t =>
      P t t.d ∧ ReadsSame s t ∧ t = { u with a := t.a, b := t.b, ccr := t.ccr } := by
  have hd : ((u.setD x.r).nzvc x).d = x.r := joinBytes_hiByte_loByte x.r
  exact ⟨_, rfl, hd.symm ▸ hP, readsSame_setCcr hu (sameMemory_setD u _) _, rfl⟩

end

/-- Settles O26: each addition is one of the two above on its operands; ADDD writes D. -/
theorem additionsSetSumCarryAndOverflow : Obligations.AdditionsSetSumCarryAndOverflow := by
  unfold Obligations.AdditionsSetSumCarryAndOverflow
  refine ⟨fun s o => ?_, fun s o => ?_, fun s o => ?_, fun s o => ?_, fun s => ?_, fun s o => ?_⟩
  · exact completes_addToA (onlyIndexes_src8Update s o) (src8 s o) false
  · exact completes_addToB (onlyIndexes_src8Update s o) (src8 s o) false
  · exact completes_addToA (onlyIndexes_src8Update s o) (src8 s o) s.flagC
  · exact completes_addToB (onlyIndexes_src8Update s o) (src8 s o) s.flagC
  · exact completes_addToA (OnlyIndexes.refl s) s.b false
  · have hu := onlyIndexes_src16Update s o
    exact completes_setD_nzvc hu _ (P := fun t r => IsSum s.d _ _ r ∧ SumFlags s t s.d _ _ r)
      (isSum_and_sumFlags (r := (src16Update s o).setD _) hu.ccr_eq s.d (src16 s o) false)

/-! ## Subtractions and compares (R232 to R237, R260 to R266) -/

section
variable {s u : State} (hu : OnlyIndexes s u)
include hu

/-- Subtraction from A after the update of an operand. -/
theorem completes_subFromA (m : Byte) (c : Bool) : Completes (.next (subFromA m c u)) fun t =>
    (IsDiff s.a m c t.a ∧ DiffFlags s t s.a m c t.a) ∧ ReadsSame s t ∧ t = { u with a := t.a, ccr := t.ccr } := by
  obtain ⟨ha, -⟩ := hu.fields
  rw [subFromA, ha]
  exact ⟨_, rfl, isDiff_and_diffFlags (r := u.setA _) hu.ccr_eq (by decide) s.a m c,
    readsSame_setCcr hu (sameMemory_setA u _) _, rfl⟩

/-- Subtraction from B after the update of an operand. -/
theorem completes_subFromB (m : Byte) (c : Bool) : Completes (.next (subFromB m c u)) fun t =>
    (IsDiff s.b m c t.b ∧ DiffFlags s t s.b m c t.b) ∧ ReadsSame s t ∧ t = { u with b := t.b, ccr := t.ccr } := by
  obtain ⟨-, hb, -⟩ := hu.fields
  rw [subFromB, hb]
  exact ⟨_, rfl, isDiff_and_diffFlags (r := u.setB _) hu.ccr_eq (by decide) s.b m c,
    readsSame_setCcr hu (sameMemory_setB u _) _, rfl⟩

/-- A compare after the update of an operand: whatever number is the difference, the flags are those of it. -/
theorem completes_compare {w : Nat} (hw : 0 < w) (a m : BitVec w) : Completes (.next (compare a m u)) fun t =>
    (∀ r, IsDiff a m false r → DiffFlags s t a m false r) ∧ ReadsSame s t ∧ t = { u with ccr := t.ccr } := by
  obtain ⟨hdiff, hflags⟩ := isDiff_and_diffFlags hu.ccr_eq hw a m false
  exact ⟨_, rfl, fun r hr => hr.eq hdiff ▸ hflags, readsSame_setCcr hu (SameMemory.refl u) _, rfl⟩

end

/-- Settles O27: each subtraction is one of the two above on its operands; SUBD writes D. -/
theorem subtractionsSetDifferenceBorrowAndOverflow : Obligations.SubtractionsSetDifferenceBorrowAndOverflow := by
  unfold Obligations.SubtractionsSetDifferenceBorrowAndOverflow
  refine ⟨fun s o => ?_, fun s o => ?_, fun s o => ?_, fun s o => ?_, fun s => ?_, fun s o => ?_⟩
  · exact completes_subFromA (onlyIndexes_src8Update s o) (src8 s o) false
  · exact completes_subFromB (onlyIndexes_src8Update s o) (src8 s o) false
  · exact completes_subFromA (onlyIndexes_src8Update s o) (src8 s o) s.flagC
  · exact completes_subFromB (onlyIndexes_src8Update s o) (src8 s o) s.flagC
  · exact completes_subFromA (OnlyIndexes.refl s) s.b false
  · have hu := onlyIndexes_src16Update s o
    exact completes_setD_nzvc hu _ (P := fun t r => IsDiff s.d _ _ r ∧ DiffFlags s t s.d _ _ r)
      (isDiff_and_diffFlags (r := (src16Update s o).setD _) hu.ccr_eq (by decide) s.d (src16 s o) false)

/-- Settles O28: every compare is `compare` of its register, for CPS, CPX and CPY as the access finds it. -/
theorem comparesSetTheFlagsOfTheDifference : Obligations.ComparesSetTheFlagsOfTheDifference := by
  unfold Obligations.ComparesSetTheFlagsOfTheDifference
  have byteCompare (s : State) (o : Src8) (a : Byte) :=
    completes_compare (onlyIndexes_src8Update s o) (by decide) a (src8 s o)
  have wordCompare (s : State) (o : Src16) (a : Word) :=
    completes_compare (onlyIndexes_src16Update s o) (by decide) a (src16 s o)
  refine ⟨fun s o => byteCompare s o s.a, fun s o => byteCompare s o s.b,
    fun s => completes_compare (OnlyIndexes.refl s) (by decide) s.a s.b, fun s o => ?_, fun s o => ?_, fun s o => ?_,
    fun s o => ?_⟩
  · have hd : (src16Access s o).d = s.d := by
      obtain ⟨ha, hb, -⟩ := (onlyIndexes_src16Access s o).fields
      rw [State.d, State.d, ha, hb]
    rw [hd]
    exact wordCompare s o s.d
  · exact wordCompare s o (src16Access s o).sp
  · exact wordCompare s o (src16Access s o).x
  · exact wordCompare s o (src16Access s o).y

/-! ## DAA (R240) -/

/-- The glossary's table, row by row. -/
theorem daaRow_rows (hi lo : Nat) :
    (hi ≤ 9 ∧ lo ≤ 9 → daaRow false hi false lo = some (0x00, false)) ∧
    (hi ≤ 8 ∧ 10 ≤ lo → daaRow false hi false lo = some (0x06, false)) ∧
    (hi ≤ 9 ∧ lo ≤ 3 → daaRow false hi true lo = some (0x06, false)) ∧
    (10 ≤ hi ∧ lo ≤ 9 → daaRow false hi false lo = some (0x60, true)) ∧
    (9 ≤ hi ∧ 10 ≤ lo → daaRow false hi false lo = some (0x66, true)) ∧
    (10 ≤ hi ∧ lo ≤ 3 → daaRow false hi true lo = some (0x66, true)) ∧
    (hi ≤ 2 ∧ lo ≤ 9 → daaRow true hi false lo = some (0x60, true)) ∧
    (hi ≤ 2 ∧ 10 ≤ lo → daaRow true hi false lo = some (0x66, true)) ∧
    (hi ≤ 3 ∧ lo ≤ 3 → daaRow true hi true lo = some (0x66, true)) := by
  simp only [daaRow, Bool.not_true, Bool.not_false, Bool.false_and, Bool.true_and, Bool.and_true, Bool.and_false,
    Bool.and_eq_true, decide_eq_true_eq, Bool.false_eq_true, if_false]
  refine ⟨fun h => if_pos h, fun h => ?_, fun h => if_pos h, fun h => ?_, fun h => ?_, fun h => ?_, fun h => if_pos h,
    fun h => ?_, fun h => if_pos h⟩
  · rw [if_neg (by omega), if_pos h]
  · rw [if_neg (by omega), if_neg (by omega), if_pos h]
  · rw [if_neg (by omega), if_neg (by omega), if_neg (by omega), if_pos h]
  · rw [if_neg (by omega), if_pos h]
  · rw [if_neg (by omega), if_pos h]

/-- The byte of digits `hi` and `lo`, corrected by `row`, holds `ones` and the last digit of `tens`, and C says whether
`tens` has a second digit. -/
def CorrectsTo (row : Option (Byte × Bool)) (hi lo tens ones : Nat) : Prop :=
  ∃ k c, row = some (k, c) ∧ (16 * hi + lo + k.toNat) % 256 = 16 * (tens % 10) + ones ∧ c = decide (10 ≤ tens)

/-- A row that leaves C = 0. -/
theorem correctsTo_of_noCarry {row : Option (Byte × Bool)} {hi lo tens ones : Nat} {k : Byte}
    (hrow : row = some (k, false)) (ht : tens < 10) (hk : 16 * hi + lo + k.toNat = 16 * tens + ones)
    (hones : ones < 10) : CorrectsTo row hi lo tens ones := by
  refine ⟨k, false, hrow, ?_, (decide_eq_false (by omega)).symm⟩
  rw [Nat.mod_eq_of_lt ht]
  omega

/-- A row that leaves C = 1: the carry leaves the byte in the binary sum already, `c = 1`, or by the correction. -/
theorem correctsTo_of_carry {row : Option (Byte × Bool)} {hi lo tens ones c : Nat} {k : Byte}
    (hrow : row = some (k, true)) (ht : 10 ≤ tens ∧ tens < 20)
    (hk : 256 * c + 16 * hi + lo + k.toNat = 256 + 16 * (tens - 10) + ones) (hones : ones < 10) :
    CorrectsTo row hi lo tens ones := by
  have hmod : tens % 10 = tens - 10 := by omega
  refine ⟨k, true, hrow, ?_, (decide_eq_true ht.1).symm⟩
  rw [hmod]
  omega

/-- The table at the sum of two BCD bytes, where `hs` and `ls` are the sums of their high and of their low digits, a
carry in with the low ones, and `tens` and `ones` the decimal sum: the low digits stay below 10, pass 9 or carry into
bit 4, and the whole sum stays below 100, passes 99 or carries out of bit 7; the nine cases are the nine rows. -/
theorem correctsTo_daaRow {hs ls hi lo tens ones : Nat} {c h : Bool} (hhs : hs ≤ 18) (hls : ls ≤ 19) (hhi : hi < 16)
    (hlo : lo < 16) (hones : ones < 10) (hdecimal : 10 * hs + ls = 10 * tens + ones)
    (hbinary : 16 * hs + ls = 256 * c.toNat + 16 * hi + lo) (hh : h = true ↔ 16 ≤ ls) :
    CorrectsTo (daaRow c hi h lo) hi lo tens ones := by
  obtain ⟨row1, row2, row3, row4, row5, row6, row7, row8, row9⟩ := daaRow_rows hi lo
  have hsum := Nat.lt_or_ge tens 10
  have hlow := Nat.lt_or_ge ls 10
  cases c <;> cases h <;>
    simp only [Bool.toNat_false, Bool.toNat_true, Bool.false_eq_true, false_iff, true_iff] at hbinary hh
  case false.false =>
    obtain hlow | hlow := hlow <;> obtain hsum | hsum := hsum
    · exact correctsTo_of_noCarry (row1 (by omega)) hsum (show _ + 0x00 = _ by omega) hones
    · exact correctsTo_of_carry (row4 (by omega)) (by omega) (show 256 * 0 + _ + _ + 0x60 = _ by omega) hones
    · exact correctsTo_of_noCarry (row2 (by omega)) hsum (show _ + 0x06 = _ by omega) hones
    · exact correctsTo_of_carry (row5 (by omega)) (by omega) (show 256 * 0 + _ + _ + 0x66 = _ by omega) hones
  case false.true =>
    obtain hsum | hsum := hsum
    · exact correctsTo_of_noCarry (row3 (by omega)) hsum (show _ + 0x06 = _ by omega) hones
    · exact correctsTo_of_carry (row6 (by omega)) (by omega) (show 256 * 0 + _ + _ + 0x66 = _ by omega) hones
  case true.false =>
    obtain hlow | hlow := hlow
    · exact correctsTo_of_carry (row7 (by omega)) (by omega) (show 256 * 1 + _ + _ + 0x60 = _ by omega) hones
    · exact correctsTo_of_carry (row8 (by omega)) (by omega) (show 256 * 1 + _ + _ + 0x66 = _ by omega) hones
  case true.true =>
    exact correctsTo_of_carry (row9 (by omega)) (by omega) (show 256 * 1 + _ + _ + 0x66 = _ by omega) hones

/-- The row that DAA takes, by the digits of A. -/
theorem daaLookup_eq (s : State) : daaLookup s = daaRow s.flagC (s.a.toNat / 16) s.flagH (s.a.toNat % 16) := by
  have hhi : (s.a.extractLsb' 4 4).toNat = s.a.toNat / 16 := by
    rw [BitVec.extractLsb'_toNat, Nat.shiftRight_eq_div_pow]
    exact Nat.mod_eq_of_lt (by omega)
  have hlo : (s.a.extractLsb' 0 4).toNat = s.a.toNat % 16 := BitVec.extractLsb'_toNat ..
  rw [daaLookup, hhi, hlo]

theorem execDaa_of_row {s : State} {k : Byte} {c : Bool} (h : daaLookup s = some (k, c)) :
    execDaa s = .next (daaResult s (s.a + k) c) := by rw [execDaa, h]

/-- DAA always leaves a value in A and its flags, in the table or not. -/
theorem execDaa_eq (s : State) : ∃ r c, execDaa s = .next (daaResult s r c) := by
  cases h : daaLookup s with
  | some row => exact ⟨_, _, execDaa_of_row h⟩
  | none =>
    rw [execDaa, h]
    exact ⟨_, _, rfl⟩

theorem flagsNZVC_daaResult (s : State) (r : Byte) (c : Bool) :
    FlagsNZVC s (daaResult s r c) (negative r) (zero r) (freeFlag s 1) c := flagsNZVC_of_result rfl

theorem daaResult_flagC (s : State) (r : Byte) (c : Bool) : (daaResult s r c).flagC = c := by
  obtain ⟨-, -, -, -, -, -, -, h⟩ := flagsNZVC_daaResult s r c
  exact h

/-- The carry out of a byte as a number. -/
theorem toNat_decide_carry {n : Nat} (h : n < 512) : (decide (256 ≤ n)).toNat = n / 256 := by
  obtain hn | hn := Nat.lt_or_ge n 256
  · rw [decide_eq_false (by omega), Bool.toNat_false, Nat.div_eq_of_lt hn]
  · rw [decide_eq_true hn, Bool.toNat_true]
    omega

/-- Settles O29: the digits of two BCD bytes add up to the byte in A and to the decimal sum, and there the table
corrects the one to the other. -/
theorem decimalAdjustCorrectsBcdSums : Obligations.DecimalAdjustCorrectsBcdSums := by
  unfold Obligations.DecimalAdjustCorrectsBcdSums
  refine ⟨fun s => ?_, fun s p q c hp hq ha hc hh => ?_⟩
  · obtain ⟨r, c, h⟩ := execDaa_eq s
    refine ⟨_, h, ⟨freeFlag s 1, ?_⟩, readsSame_setCcr (OnlyIndexes.refl s) (sameMemory_setA s r) _, rfl⟩
    rw [daaResult_flagC]
    exact flagsNZVC_daaResult s r c
  · have hcin := c.toNat_le
    have hcarry := toNat_decide_carry (n := p / 10 * 16 + p % 10 + (q / 10 * 16 + q % 10) + c.toNat) (by omega)
    rw [← hc] at hcarry
    have hbinary : 16 * (p / 10 + q / 10) + (p % 10 + q % 10 + c.toNat) =
        256 * s.flagC.toNat + 16 * (s.a.toNat / 16) + s.a.toNat % 16 := by omega
    obtain ⟨k, c', hrow, hk, hc'⟩ := correctsTo_daaRow (tens := (p + q + c.toNat) / 10) (ones := (p + q + c.toNat) % 10)
      (by omega) (by omega) (by omega) (by omega) (by omega) (by omega) hbinary (hh ▸ decide_eq_true_iff)
    rw [← daaLookup_eq] at hrow
    refine ⟨_, execDaa_of_row hrow, ?_, ?_⟩
    · change (s.a + k).toNat = _
      rw [BitVec.toNat_add]
      omega
    · rw [daaResult_flagC, hc']
      exact decide_eq_decide.2 (by omega)

/-! ## One operand (R245 to R253, R270 to R272, 42_logic_bit.md R300 to R308) -/

/-- An operation on A, on B and on memory is known by the value `f` that it makes of its operand and the CCR `g` that it
makes of the old one and the operand (R222). -/
theorem modifies8_of_value_and_ccr {ia ib : Instr} {im : Mem2 → Instr} {f : Byte → Byte} {g : Byte → Byte → Byte}
    {P : State → State → Byte → Byte → Prop}
    (ha : ∀ s, exec ia s = .next ((s.setA (f s.a)).setCcr (g s.ccr s.a)))
    (hb : ∀ s, exec ib s = .next ((s.setB (f s.b)).setCcr (g s.ccr s.b)))
    (hm : ∀ s m, let v := read8 s .operand (mem2Ea s m)
      let u := store8 (mem2Update s m) (mem2Ea s m) (f v)
      exec (im m) s = .next (u.setCcr (g u.ccr v)))
    (hP : ∀ s t v, t.ccr = g s.ccr v → P s t v (f v)) : Modifies8 ia ib im P := by
  refine ⟨fun s => ?_, fun s => ?_, fun s m => ?_⟩
  · exact ⟨_, ha s, hP s _ s.a rfl, readsSame_setCcr (OnlyIndexes.refl s) (sameMemory_setA s _) _, rfl⟩
  · exact ⟨_, hb s, hP s _ s.b rfl, readsSame_setCcr (OnlyIndexes.refl s) (sameMemory_setB s _) _, rfl⟩
  · have hu := onlyIndexes_mem2Update s m
    have hccr : (store8 (mem2Update s m) (mem2Ea s m) (f (read8 s .operand (mem2Ea s m)))).ccr = s.ccr :=
      (store8_ccr _ _ _).trans hu.ccr_eq
    obtain ⟨hstored, honly⟩ := stored_store8 (a := mem2Ea s m) (v := f (read8 s .operand (mem2Ea s m))) hu
      (sameMemory_setCcr _ (g s.ccr (read8 s .operand (mem2Ea s m))))
    refine ⟨_, (hm s m).trans (by rw [hccr]), _, hP s _ _ rfl, hstored, honly, ?_⟩
    exact (onlyStores_store8 _ _ _).setCcr _

/-- A byte compared with a constant, as the statements write it. -/
theorem beq_eq_decide_toNat (m v : Byte) : (m == v) = decide (m.toNat = v.toNat) := by
  rw [Bool.eq_iff_iff, beq_iff_eq, decide_eq_true_eq, BitVec.toNat_eq]

/-- NEG in integers (42_logic_bit.md R306). -/
theorem negate_eq (m : Byte) : (negate m).r.toNat = (256 - m.toNat) % 256 ∧
    (negate m).v = decide (m.toNat = 128) ∧ (negate m).c = decide (m.toNat ≠ 0) := by
  have hr : (negate m).r.toNat = (256 - m.toNat) % 256 := by
    rw [negate, BitVec.toNat_sub]
    rfl
  have hv : (negate m).v = decide ((negate m).r.toNat = 128) := beq_eq_decide_toNat (negate m).r 0x80
  have hc : (negate m).c = !decide ((negate m).r.toNat = 0) := congrArg (!·) (beq_eq_decide_toNat (negate m).r 0x00)
  rw [hv, hc, hr, ← decide_not]
  have hlt := m.isLt
  exact ⟨rfl, decide_eq_decide.2 (by omega), decide_eq_decide.2 (by omega)⟩

/-- TST of a value, after the update of an operand (R270). -/
theorem tested_flags {s u : State} (hu : OnlyIndexes s u) (v : Byte) :
    FlagsNZVC s (u.nzvc (tested v)) (negative v) (zero v) false false ∧ ReadsSame s (u.nzvc (tested v)) := by
  refine ⟨flagsNZVC_of_result ?_, readsSame_setCcr hu (SameMemory.refl u) _⟩
  rw [State.nzvc_ccr, hu.ccr_eq, Alu.putFlags, tested]

/-- Settles O30: the operation of each line by the value and the flags that it makes of its operand; TST by its flags
alone. -/
theorem oneOperandArithmetic : Obligations.OneOperandArithmetic := by
  unfold Obligations.OneOperandArithmetic
  refine ⟨?inc, ?dec, ?neg, ?com, ?clr, fun s => ?tsta, fun s => ?tstb, fun s m => ?tst⟩
  case inc =>
    refine modifies8_of_value_and_ccr (f := (· + 1))
      (g := fun ccr v => putNZV ccr (isNeg (v + 1)) (isZero (v + 1)) (incOverflow v))
      (fun s => rfl) (fun s => rfl) (fun s m => rfl) fun s t v h => ⟨BitVec.toNat_add v 1, ?_⟩
    exact beq_eq_decide_toNat v 0x7F ▸ flagsNZV_of_result h
  case dec =>
    refine modifies8_of_value_and_ccr (f := (· - 1))
      (g := fun ccr v => putNZV ccr (isNeg (v - 1)) (isZero (v - 1)) (decOverflow v))
      (fun s => rfl) (fun s => rfl) (fun s m => rfl) fun s t v h => ⟨?_, ?_⟩
    · rw [BitVec.toNat_sub, Nat.add_comm]
      rfl
    · exact beq_eq_decide_toNat v 0x80 ▸ flagsNZV_of_result h
  case neg =>
    refine modifies8_of_value_and_ccr (f := fun v => (negate v).r) (g := fun ccr v => (negate v).putFlags ccr)
      (fun s => rfl) (fun s => rfl) (fun s m => rfl) fun s t v h => ?_
    obtain ⟨hr, hv, hc⟩ := negate_eq v
    exact ⟨hr, hv ▸ hc ▸ flagsNZVC_of_result h⟩
  case com =>
    refine modifies8_of_value_and_ccr (f := fun v => (complement v).r) (g := fun ccr v => (complement v).putFlags ccr)
      (fun s => rfl) (fun s => rfl) (fun s m => rfl) fun s t v h => ?_
    exact ⟨BitVec.toNat_not, flagsNZVC_of_result h⟩
  case clr =>
    exact modifies8_of_value_and_ccr (f := fun _ => cleared.r) (g := fun ccr _ => cleared.putFlags ccr)
      (fun s => rfl) (fun s => rfl) (fun s m => rfl) fun s t _ h => ⟨rfl, flags_putNZVC s t _ _ _ _ h⟩
  case tsta =>
    obtain ⟨hflags, hreads⟩ := tested_flags (OnlyIndexes.refl s) s.a
    exact ⟨_, rfl, ⟨rfl, hflags⟩, hreads, rfl⟩
  case tstb =>
    obtain ⟨hflags, hreads⟩ := tested_flags (OnlyIndexes.refl s) s.b
    exact ⟨_, rfl, ⟨rfl, hflags⟩, hreads, rfl⟩
  case tst =>
    obtain ⟨hflags, hreads⟩ := tested_flags (onlyIndexes_mem2Update s m) (read8 s .operand (mem2Ea s m))
    exact ⟨_, rfl, hflags, hreads, rfl⟩

/-! ## Index registers and SP (R225, R226, R248 to R256, 48_index_stack_lea.md R565 to R568) -/

theorem toNat_add_one (x : Word) : (x + 1).toNat = (x.toNat + 1) % 65536 := BitVec.toNat_add x 1

theorem toNat_sub_one (x : Word) : (x - 1).toNat = (x.toNat + 65535) % 65536 := by
  rw [BitVec.toNat_sub, Nat.add_comm]
  rfl

/-- Z alone, of a word put into an index register. -/
theorem flagsNZV_zeroFlag {s r : State} (h : r.ccr = s.ccr) (v : Word) :
    FlagsNZV s (r.zeroFlag v) s.flagN (zero v) s.flagV := by
  apply flags_putZ
  rw [State.zeroFlag, State.setCcr_ccr, h, isZero_eq_zero]

/-- INX and DEX: X takes a value `f` of itself, and Z is that value's. -/
theorem modifiesX_of_zeroFlag {i : Instr} {f : Word → Word} {k : Nat} (hf : ∀ x, (f x).toNat = (x.toNat + k) % 65536)
    (hi : ∀ s, exec i s = .next ((s.setX (f s.x)).zeroFlag (f s.x))) :
    ModifiesX i (fun s t x r => r.toNat = (x.toNat + k) % 65536 ∧ FlagsNZV s t s.flagN (zero r) s.flagV) := fun s =>
  ⟨_, hi s, ⟨hf s.x, flagsNZV_zeroFlag (r := s.setX _) rfl _⟩,
    readsSame_setCcr (OnlyIndexes.refl s) (sameMemory_setX s _) _, rfl⟩

/-- INY and DEY: the same on Y. -/
theorem modifiesY_of_zeroFlag {i : Instr} {f : Word → Word} {k : Nat} (hf : ∀ y, (f y).toNat = (y.toNat + k) % 65536)
    (hi : ∀ s, exec i s = .next ((s.setY (f s.y)).zeroFlag (f s.y))) :
    ModifiesY i (fun s t y r => r.toNat = (y.toNat + k) % 65536 ∧ FlagsNZV s t s.flagN (zero r) s.flagV) := fun s =>
  ⟨_, hi s, ⟨hf s.y, flagsNZV_zeroFlag (r := s.setY _) rfl _⟩,
    readsSame_setCcr (OnlyIndexes.refl s) (sameMemory_setY s _) _, rfl⟩

/-- An accumulator offset added to an index register (R225, R226). -/
theorem add_zext16 (x : Word) (b : Byte) : x + zext16 b = BitVec.ofNat 16 (x.toNat + b.toNat) := by
  rw [add_eq_ofNat, toNat_zext16]

theorem sub_one_eq_ofNat (x : Word) : x - 1 = BitVec.ofNat 16 (x.toNat + 65535) := by
  rw [BitVec.sub_eq_add_neg]
  exact add_eq_ofNat x (-1)

/-- Settles O31: INX to DEY by the two rules above, the rest by the next state that their meaning is. -/
theorem indexRegisterArithmetic : Obligations.IndexRegisterArithmetic := by
  unfold Obligations.IndexRegisterArithmetic
  refine ⟨modifiesX_of_zeroFlag toNat_add_one fun s => rfl, modifiesY_of_zeroFlag toNat_add_one fun s => rfl,
    modifiesX_of_zeroFlag toNat_sub_one fun s => rfl, modifiesY_of_zeroFlag toNat_sub_one fun s => rfl,
    fun s => ?ins, fun s => ?des, fun s => ?abx, fun s => ?aby, fun s m => rfl, fun s m => rfl, fun s m => rfl⟩
  case ins => exact congrArg (fun v => (.next (s.setSp v) : Res)) (add_eq_ofNat s.sp 1)
  case des => exact congrArg (fun v => (.next (s.setSp v) : Res)) (sub_one_eq_ofNat s.sp)
  case abx => exact congrArg (fun v => (.next (s.setX v) : Res)) (add_zext16 s.x s.b)
  case aby => exact congrArg (fun v => (.next (s.setY v) : Res)) (add_zext16 s.y s.b)

end Sys2Proof.Machine
end

section
/-! PROOF. Boolean logic and bit manipulation (42_logic_bit.md R290 to R298, R310 to R312): the model's operation on
whole bytes is the statement's operation on each bit, and what is written beside the result is written as by a load or
by a store of the result. -/

namespace Sys2Proof.Machine

/-! ## Bits of a result -/

/-- The operation `f` on bytes is the operation `g` on each of their bits. -/
def Bitwise (f : Byte → Byte → Byte) (g : Bool → Bool → Bool) : Prop :=
  ∀ a m k, (f a m).getLsbD k = g (a.getLsbD k) (m.getLsbD k)

theorem bitwise_and : Bitwise (· &&& ·) and := fun _ _ _ => BitVec.getLsbD_and
theorem bitwise_or : Bitwise (· ||| ·) or := fun _ _ _ => BitVec.getLsbD_or
theorem bitwise_xor : Bitwise (· ^^^ ·) bne := fun _ _ _ => BitVec.getLsbD_xor

/-- The operation of BCLR (R311): past the width both sides are 0, as the bits of the byte are. -/
theorem bitwise_andNot : Bitwise (fun v mask => v &&& ~~~mask) (fun v mask => v && !mask) := by
  intro v mask k
  change (v &&& ~~~mask).getLsbD k = (v.getLsbD k && !mask.getLsbD k)
  rw [BitVec.getLsbD_and, BitVec.getLsbD_not]
  by_cases hk : k < 8
  · rw [decide_eq_true hk, Bool.true_and]
  · rw [BitVec.getLsbD_of_ge v k (Nat.le_of_not_lt hk), Bool.false_and, Bool.false_and]

/-- The bits determine the byte. -/
theorem Bitwise.eq_of_bits {f : Byte → Byte → Byte} {g : Bool → Bool → Bool} (hf : Bitwise f g) {a m r : Byte}
    (hr : ∀ k, r.getLsbD k = g (a.getLsbD k) (m.getLsbD k)) : r = f a m :=
  BitVec.eq_of_getLsbD_eq fun k _ => (hr k).trans (hf a m k).symm

/-! ## AND, EOR, OR and BIT (R290 to R298) -/

section
variable {i : Src8 → Instr} {f : Byte → Byte → Byte} {g : Bool → Bool → Bool}

/-- A bitwise operation into A: after the update of the operand A and the flags are those of a load of the result. -/
theorem onA_of_bitwise (hf : Bitwise f g) (hi : ∀ s o, let r := f s.a (src8 s o)
      exec (i o) s = .next (((src8Update s o).setA r).nzv0 r)) :
    OnA i fun s t a m r =>
      (∀ k, r.getLsbD k = g (a.getLsbD k) (m.getLsbD k)) ∧ FlagsNZV s t (negative r) (zero r) false := by
  intro s o
  obtain ⟨hflags, hreads⟩ :=
    load_flags_and_reads (onlyIndexes_src8Update s o) (sameMemory_setA _ _) rfl (f s.a (src8 s o))
  exact ⟨_, hi s o, ⟨hf _ _, hflags⟩, hreads, rfl⟩

/-- The same on B. -/
theorem onB_of_bitwise (hf : Bitwise f g) (hi : ∀ s o, let r := f s.b (src8 s o)
      exec (i o) s = .next (((src8Update s o).setB r).nzv0 r)) :
    OnB i fun s t a m r =>
      (∀ k, r.getLsbD k = g (a.getLsbD k) (m.getLsbD k)) ∧ FlagsNZV s t (negative r) (zero r) false := by
  intro s o
  obtain ⟨hflags, hreads⟩ :=
    load_flags_and_reads (onlyIndexes_src8Update s o) (sameMemory_setB _ _) rfl (f s.b (src8 s o))
  exact ⟨_, hi s o, ⟨hf _ _, hflags⟩, hreads, rfl⟩

/-- A bitwise operation whose result is discarded (R297): the one byte with these bits is that result. -/
theorem tests8_of_bitwise {reg : State → Byte} (hf : Bitwise f g)
    (hi : ∀ s o, exec (i o) s = .next ((src8Update s o).nzv0 (f (reg s) (src8 s o)))) :
    Tests8 i reg fun s t a m => ∀ r : Byte,
      (∀ k, r.getLsbD k = g (a.getLsbD k) (m.getLsbD k)) → FlagsNZV s t (negative r) (zero r) false := by
  intro s o
  obtain ⟨hflags, hreads⟩ :=
    load_flags_and_reads (onlyIndexes_src8Update s o) (SameMemory.refl _) rfl (f (reg s) (src8 s o))
  exact ⟨_, hi s o, fun r hr => hf.eq_of_bits hr ▸ hflags, hreads, rfl⟩

end

/-- Settles O32: each instruction is its bitwise operation on the accumulator and the operand. -/
theorem logicWorksBitByBit : Obligations.LogicWorksBitByBit := by
  unfold Obligations.LogicWorksBitByBit
  exact ⟨onA_of_bitwise bitwise_and fun s o => rfl, onB_of_bitwise bitwise_and fun s o => rfl,
    onA_of_bitwise bitwise_xor fun s o => rfl, onB_of_bitwise bitwise_xor fun s o => rfl,
    onA_of_bitwise bitwise_or fun s o => rfl, onB_of_bitwise bitwise_or fun s o => rfl,
    tests8_of_bitwise bitwise_and fun s o => rfl, tests8_of_bitwise bitwise_and fun s o => rfl⟩

/-! ## BSET and BCLR (R310 to R312) -/

/-- A byte stored with its flags after a change of index registers (R161, R310). -/
theorem store8_nzv0_spec {s u : State} (hu : OnlyIndexes s u) (a : Word) (v : Byte) :
    let t := (store8 u a v).nzv0 v
    Stored s t a v ∧ StoresOnly s t [a] ∧ FlagsNZV s t (negative v) (zero v) false ∧
      OnlyStores { u with ccr := t.ccr } t := by
  obtain ⟨hstored, honly⟩ := stored_store8 hu (sameMemory_nzv0 (store8 u a v) v)
  have hccr : (store8 u a v).ccr = s.ccr := (store8_ccr u a v).trans hu.ccr_eq
  exact ⟨hstored, honly, flagsNZV_nzv0 hccr v, (onlyStores_store8 u a v).setCcr _⟩

/-- A bitwise operation with a mask on the byte at the address. -/
theorem completes_modifyBits {f : Byte → Byte → Byte} {g : Bool → Bool → Bool} (hf : Bitwise f g) (s : State)
    (m : BitEa) (mask : Byte) : Completes (.next (modifyBits (f · mask) m s)) fun t => ∃ r : Byte,
      (∀ k, r.getLsbD k = g ((read8 s .operand (bitEa s m)).getLsbD k) (mask.getLsbD k)) ∧
      Stored s t (bitEa s m) r ∧ StoresOnly s t [bitEa s m] ∧ FlagsNZV s t (negative r) (zero r) false ∧
      OnlyStores { bitUpdate s m with ccr := t.ccr } t :=
  ⟨_, rfl, f (read8 s .operand (bitEa s m)) mask, hf _ _, store8_nzv0_spec (onlyIndexes_bitUpdate s m) _ _⟩

/-- Settles O33: BSET is OR with the mask, BCLR is AND with its complement. -/
theorem bitInstructionsChangeTheMaskedBits : Obligations.BitInstructionsChangeTheMaskedBits := by
  unfold Obligations.BitInstructionsChangeTheMaskedBits
  exact fun s m mask => ⟨completes_modifyBits bitwise_or s m mask, completes_modifyBits bitwise_andNot s m mask⟩

end Sys2Proof.Machine
end

section
/-! PROOF. Multiplication and division (43_muldiv.md R345 to R354): products and quotients as integers, then each
instruction as one equation for each of its outcomes. -/

namespace Sys2Proof.Machine

/-! ## The pair Y : D (R340) -/

theorem toNat_yd (s : State) : (yd s).toNat = s.y.toNat * 65536 + s.d.toNat := by
  rw [yd, BitVec.toNat_append, ← Nat.shiftLeft_add_eq_or_of_lt s.d.isLt, Nat.shiftLeft_eq]

theorem toInt_yd (s : State) : (yd s).toInt = s.y.toInt * 65536 + s.d.toNat := by
  rw [yd, BitVec.toInt_append, if_neg (by decide)]
  ring

/-- D reads as the word last written to it, whatever flags follow. -/
theorem d_setD_setCcr (s : State) (v : Word) (c : Byte) : ((s.setD v).setCcr c).d = v := joinBytes_hiByte_loByte v

/-- The pair reads as the product that was written to it. -/
theorem yd_productFlags_setYD (s : State) (p : BitVec 32) : yd (productFlags (setYD s p) p) = p := by
  rw [yd, productFlags, setYD, d_setD_setCcr]
  exact BitVec.extractLsb'_append_extractLsb' (w := 16) (len := 16)

/-- Registers Y and D written, then flags: no read has changed. -/
theorem readsSame_setY_setD_setCcr (s : State) (q r : Word) (c : Byte) :
    ReadsSame s (((s.setY q).setD r).setCcr c) :=
  readsSame_setCcr (OnlyIndexes.refl s) ((sameMemory_setY s q).trans (sameMemory_setD _ r)) c

/-- Registers X and D written, then flags: no read has changed. -/
theorem readsSame_setX_setD_setCcr (s : State) (q r : Word) (c : Byte) :
    ReadsSame s (((s.setX q).setD r).setCcr c) :=
  readsSame_setCcr (OnlyIndexes.refl s) ((sameMemory_setX s q).trans (sameMemory_setD _ r)) c

/-! ## Flags -/

/-- C written. -/
theorem flags_putC (s t : State) (c : Bool) (h : t.ccr = putBit s.ccr 0 c) :
    FlagsNZVC s t s.flagN s.flagZ s.flagV c := by
  simp [FlagsNZVC, CcrIs, State.flagS, State.flagX, State.flagH, State.flagI, State.flagN, State.flagZ, State.flagV,
    State.flagC, h]

section
variable {s r : State} (h : r.ccr = s.ccr)
include h

theorem flags_productFlags (p : BitVec 32) :
    FlagsNZVC s (productFlags r p) (negative p) (zero p) s.flagV (p.getLsbD 15) := by
  apply flags_putNZC
  rw [productFlags, State.setCcr_ccr, h, isNeg_eq_negative, isZero_eq_zero]

theorem flags_quotientFlags (q : Word) : FlagsNZVC s (quotientFlags r q) (negative q) (zero q) false false := by
  apply flags_putNZVC
  rw [quotientFlags, State.setCcr_ccr, h, isNeg_eq_negative, isZero_eq_zero]

theorem flags_overflowFlags : ∃ n z, FlagsNZVC s (overflowFlags r) n z true false :=
  ⟨_, _, flags_putNZVC _ _ _ _ _ _ (by rw [overflowFlags, State.setCcr_ccr, h])⟩

theorem flags_fractionFlags (z v c : Bool) : FlagsNZVC s (fractionFlags r z v c) s.flagN z v c := by
  simp [FlagsNZVC, CcrIs, State.flagS, State.flagX, State.flagH, State.flagI, State.flagN, State.flagZ, State.flagV,
    State.flagC, fractionFlags, putZ, h]

end

theorem flags_divideByZero (s : State) : ∃ n z v, FlagsNZVC s (divideByZero s) n z v true :=
  ⟨_, _, _, flags_putNZVC _ _ _ _ _ _ rfl⟩

/-- A division by zero in EDIV, EDIVS and IDIVS changes no memory. -/
theorem readsSame_divideByZero (s : State) : ReadsSame s (divideByZero s) := (sameMemory_setCcr s _).readsSame

/-! ## Multiplication (R345 to R347) -/

/-- C of MUL: the top bit of the low byte of the product. -/
theorem getLsbD_7_eq_decide (v : Word) : v.getLsbD 7 = decide (128 ≤ v.toNat % 256) := by
  rw [getLsbD_eq_decide, decide_eq_decide]
  omega

/-- C of EMUL and EMULS: the top bit of the low word of the product. -/
theorem getLsbD_15_eq_decide (p : BitVec 32) : p.getLsbD 15 = decide (32768 ≤ p.toNat % 65536) := by
  rw [getLsbD_eq_decide, decide_eq_decide]
  omega

/-- The low word of a signed number is that of the unsigned one. -/
theorem toInt_emod_65536 (p : BitVec 32) : p.toInt % 65536 = (p.toNat % 65536 : Nat) := by
  have := toInt_cases p
  omega

theorem negative_eq_decide_toInt {w : Nat} (p : BitVec w) : negative p = decide (p.toInt < 0) := by
  rw [← isNeg_eq_negative, isNeg, BitVec.msb_eq_toInt]

theorem zero_eq_decide_toInt {w : Nat} (p : BitVec w) : zero p = decide (p.toInt = 0) := by
  rw [← isZero_eq_zero, isZero, Bool.eq_iff_iff, beq_iff_eq, decide_eq_true_eq, ← BitVec.toInt_zero, BitVec.toInt_inj]
  rfl

/-- The product of two bytes fits a word. -/
theorem toNat_zext16_mul (a b : Byte) : (zext16 a * zext16 b).toNat = a.toNat * b.toNat := by
  have hfits : a.toNat * b.toNat < 2 ^ (8 * 2) := BitVec.toNat_mul_toNat_lt
  rw [BitVec.toNat_mul, toNat_zext16, toNat_zext16, Nat.mod_eq_of_lt hfits]

/-- The unsigned product of two words fits 32 bits. -/
theorem toNat_setWidth_mul (d y : Word) : (d.setWidth 32 * y.setWidth 32).toNat = d.toNat * y.toNat := by
  have hfits : d.toNat * y.toNat < 2 ^ (16 * 2) := BitVec.toNat_mul_toNat_lt
  have hwide (v : Word) : (v.setWidth 32).toNat = v.toNat := BitVec.toNat_setWidth_of_le (by decide)
  rw [BitVec.toNat_mul, hwide, hwide, Nat.mod_eq_of_lt hfits]

/-- The signed product of two words fits 32 bits. -/
theorem toInt_signExtend_mul (d y : Word) : (d.signExtend 32 * y.signExtend 32).toInt = d.toInt * y.toInt := by
  have hlow : -2 ^ (16 * 2 - 2) ≤ d.toInt * y.toInt := BitVec.le_toInt_mul_toInt
  have hhigh : d.toInt * y.toInt ≤ 2 ^ (16 * 2 - 2) := BitVec.toInt_mul_toInt_le
  have hwide (v : Word) : (v.signExtend 32).toInt = v.toInt := BitVec.toInt_signExtend_of_le (by decide)
  rw [BitVec.toInt_mul, hwide, hwide]
  exact Int.bmod_eq_of_le_mul_two (by omega) (by omega)

/-- A product in Y : D with its flags (R346), as an unsigned number. -/
theorem productFlags_unsigned (s : State) (p : BitVec 32) :
    let t := productFlags (setYD s p) p
    t.y.toNat * 65536 + t.d.toNat = p.toNat ∧
      FlagsNZVC s t (decide (2 ^ 31 ≤ p.toNat)) (decide (p.toNat = 0)) s.flagV (decide (32768 ≤ p.toNat % 65536)) := by
  refine ⟨?_, ?_⟩
  · rw [← toNat_yd, yd_productFlags_setYD]
  · rw [← getLsbD_15_eq_decide]
    exact flags_productFlags rfl p

/-- A product in Y : D with its flags (R347), as a signed number. -/
theorem productFlags_signed (s : State) (p : BitVec 32) :
    let t := productFlags (setYD s p) p
    t.y.toInt * 65536 + t.d.toNat = p.toInt ∧
      FlagsNZVC s t (decide (p.toInt < 0)) (decide (p.toInt = 0)) s.flagV (decide (32768 ≤ p.toInt % 65536)) := by
  refine ⟨?_, ?_⟩
  · rw [← toInt_yd, yd_productFlags_setYD]
  · have hc : decide (32768 ≤ p.toInt % 65536) = p.getLsbD 15 := by
      rw [toInt_emod_65536, getLsbD_15_eq_decide, decide_eq_decide]
      omega
    rw [hc, ← negative_eq_decide_toInt, ← zero_eq_decide_toInt]
    exact flags_productFlags rfl p

/-- Settles O34: each product fits the register or pair that it is written to, so it is whole. -/
theorem multiplicationsGiveTheWholeProduct : Obligations.MultiplicationsGiveTheWholeProduct := by
  unfold Obligations.MultiplicationsGiveTheWholeProduct
  refine ⟨fun s => ⟨_, rfl, ?_, ?_, ?_, rfl⟩, fun s => ?_, fun s => ?_⟩
  · rw [d_setD_setCcr, toNat_zext16_mul]
  · rw [d_setD_setCcr, ← getLsbD_7_eq_decide]
    exact flags_putC _ _ _ rfl
  · exact readsSame_setCcr (OnlyIndexes.refl s) (sameMemory_setD s _) _
  · rw [← toNat_setWidth_mul]
    obtain ⟨hp, hflags⟩ := productFlags_unsigned s (s.d.setWidth 32 * s.y.setWidth 32)
    exact ⟨_, rfl, hp, hflags, readsSame_setY_setD_setCcr s _ _ _, rfl⟩
  · rw [← toInt_signExtend_mul]
    obtain ⟨hp, hflags⟩ := productFlags_signed s (s.d.signExtend 32 * s.y.signExtend 32)
    exact ⟨_, rfl, hp, hflags, readsSame_setY_setD_setCcr s _ _ _, rfl⟩

/-! ## Unsigned division (R350, R352, R353) -/

/-- A number below 2^16 as a word. -/
theorem toNat_ofNat_word {n : Nat} (h : n < 65536) : (BitVec.ofNat 16 n).toNat = n := by
  rw [BitVec.toNat_ofNat, Nat.mod_eq_of_lt h]

/-- A remainder fits its register. -/
theorem mod_toNat_lt (n : Nat) {x : Word} (hx : x.toNat ≠ 0) : n % x.toNat < 65536 :=
  (Nat.mod_lt n (Nat.pos_of_ne_zero hx)).trans x.isLt

section
variable {s : State}

theorem exec_ediv_of_zero (hx : s.x.toNat = 0) : exec .ediv s = .next (divideByZero s) := if_pos hx

theorem exec_ediv_of_overflow (hx : s.x.toNat ≠ 0) (hq : 65535 < (yd s).toNat / s.x.toNat) :
    exec .ediv s = .next (overflowFlags
      ((s.setY (Config.freeWord s.free .result)).setD (Config.freeWord s.free .remainder))) :=
  (if_neg hx).trans (if_pos hq)

theorem exec_ediv_of_fits (hx : s.x.toNat ≠ 0) (hq : (yd s).toNat / s.x.toNat ≤ 65535) :
    exec .ediv s = .next (quotientFlags
      ((s.setY (BitVec.ofNat 16 ((yd s).toNat / s.x.toNat))).setD (BitVec.ofNat 16 ((yd s).toNat % s.x.toNat)))
      (BitVec.ofNat 16 ((yd s).toNat / s.x.toNat))) :=
  (if_neg hx).trans (if_neg (Nat.not_lt.2 hq))

theorem exec_idiv_of_zero (hx : s.x.toNat = 0) :
    exec .idiv s = .next (fractionFlags ((s.setX 0xFFFF).setD (Config.freeWord s.free .remainder)) false false true) :=
  if_pos hx

theorem exec_idiv_of_ne_zero (hx : s.x.toNat ≠ 0) : exec .idiv s = .next (fractionFlags
      ((s.setX (BitVec.ofNat 16 (s.d.toNat / s.x.toNat))).setD (BitVec.ofNat 16 (s.d.toNat % s.x.toNat)))
      (s.d.toNat / s.x.toNat == 0) false false) :=
  if_neg hx

theorem exec_fdiv_of_le (hx : s.x.toNat ≤ s.d.toNat) : exec .fdiv s = .next (fractionFlags
      ((s.setX 0xFFFF).setD (Config.freeWord s.free .remainder)) false true (s.x.toNat == 0)) :=
  if_pos hx

theorem exec_fdiv_of_lt (hx : s.d.toNat < s.x.toNat) : exec .fdiv s = .next (fractionFlags
      ((s.setX (BitVec.ofNat 16 (s.d.toNat * 65536 / s.x.toNat))).setD
        (BitVec.ofNat 16 (s.d.toNat * 65536 % s.x.toNat)))
      (s.d.toNat * 65536 / s.x.toNat == 0) false false) :=
  if_neg (Nat.not_le.2 hx)

end

/-- EDIV with a quotient in range: quotient, remainder and flags. -/
theorem quotientFlags_unsigned (s : State) {q r : Nat} (hq : q < 65536) (hr : r < 65536) :
    let t := quotientFlags ((s.setY (BitVec.ofNat 16 q)).setD (BitVec.ofNat 16 r)) (BitVec.ofNat 16 q)
    t.y.toNat = q ∧ t.d.toNat = r ∧ FlagsNZVC s t (negative t.y) (zero t.y) false false := by
  refine ⟨toNat_ofNat_word hq, ?_, flags_quotientFlags rfl _⟩
  rw [quotientFlags, d_setD_setCcr, toNat_ofNat_word hr]

/-- IDIV and FDIV with a quotient in range: quotient, remainder and flags. -/
theorem fractionFlags_unsigned (s : State) {q r : Nat} (hq : q < 65536) (hr : r < 65536) :
    let t := fractionFlags ((s.setX (BitVec.ofNat 16 q)).setD (BitVec.ofNat 16 r)) (q == 0) false false
    t.x.toNat = q ∧ t.d.toNat = r ∧ FlagsNZVC s t s.flagN (zero t.x) false false := by
  have hz : zero (BitVec.ofNat 16 q) = (q == 0) := by
    rw [zero, toNat_ofNat_word hq]
    rfl
  refine ⟨toNat_ofNat_word hq, ?_, ?_⟩
  · rw [fractionFlags, d_setD_setCcr, toNat_ofNat_word hr]
  · exact hz ▸ flags_fractionFlags rfl _ _ _

/-- A fraction below 1 has a quotient that fits (R352). -/
theorem fraction_lt {n k : Nat} (h : n < k) : n * 65536 / k < 65536 := by
  rw [Nat.div_lt_iff_lt_mul (by omega)]
  omega

/-- Settles O35, by the outcomes of each instruction: a zero divisor, a quotient in range and an overflow for EDIV, a
zero divisor or not for IDIV, a denominator above the numerator or not for FDIV. -/
theorem unsignedDivisions : Obligations.UnsignedDivisions := by
  unfold Obligations.UnsignedDivisions
  refine ⟨fun s => ?_, fun s => ?_, fun s => ?_⟩
  · rw [Nat.add_assoc, ← toNat_d, ← toNat_yd]
    by_cases hx : s.x.toNat = 0
    · exact ⟨_, exec_ediv_of_zero hx, readsSame_divideByZero s, rfl, fun _ => ⟨rfl, rfl, flags_divideByZero s⟩,
        fun h => absurd hx h, fun h => absurd hx h⟩
    obtain hq | hq := Nat.lt_or_ge 65535 ((yd s).toNat / s.x.toNat)
    · exact ⟨_, exec_ediv_of_overflow hx hq, readsSame_setY_setD_setCcr s _ _ _, rfl, fun h => absurd h hx,
        fun _ h => absurd h (Nat.not_le.2 hq), fun _ _ => flags_overflowFlags rfl⟩
    · exact ⟨_, exec_ediv_of_fits hx hq, readsSame_setY_setD_setCcr s _ _ _, rfl, fun h => absurd h hx,
        fun _ _ => quotientFlags_unsigned s (Nat.lt_succ_of_le hq) (mod_toNat_lt _ hx),
        fun _ h => absurd h (Nat.not_lt.2 hq)⟩
  · rw [← toNat_d]
    by_cases hx : s.x.toNat = 0
    · exact ⟨_, exec_idiv_of_zero hx, readsSame_setX_setD_setCcr s _ _ _, rfl,
        fun _ => ⟨rfl, flags_fractionFlags rfl _ _ _⟩, fun h => absurd hx h⟩
    · exact ⟨_, exec_idiv_of_ne_zero hx, readsSame_setX_setD_setCcr s _ _ _, rfl, fun h => absurd h hx,
        fun _ => fractionFlags_unsigned s ((Nat.div_le_self _ _).trans_lt s.d.isLt) (mod_toNat_lt _ hx)⟩
  · rw [← toNat_d]
    obtain hx | hx := Nat.lt_or_ge s.d.toNat s.x.toNat
    · exact ⟨_, exec_fdiv_of_lt hx, readsSame_setX_setD_setCcr s _ _ _, rfl, fun h => absurd h (Nat.not_le.2 hx),
        fun _ => fractionFlags_unsigned s (fraction_lt hx) (mod_toNat_lt _ (Nat.ne_zero_of_lt hx))⟩
    · exact ⟨_, exec_fdiv_of_le hx, readsSame_setX_setD_setCcr s _ _ _, rfl,
        fun _ => ⟨rfl, flags_fractionFlags rfl _ _ _⟩, fun h => absurd h (Nat.not_lt.2 hx)⟩

/-! ## Signed division (R351, R354) -/

theorem outOfRange_16_eq_false {i : Int} : outOfRange 16 i = false ↔ -32768 ≤ i ∧ i < 32768 := by
  rw [outOfRange, decide_eq_false_iff_not]
  omega

theorem outOfRange_16_eq_true {i : Int} : outOfRange 16 i = true ↔ i > 32767 ∨ i < -32768 := by
  rw [outOfRange, decide_eq_true_eq]
  omega

theorem word_toInt_bounds (x : Word) : -32768 ≤ x.toInt ∧ x.toInt < 32768 := ⟨x.le_toInt, x.toInt_lt⟩

theorem toInt_ofInt_word {i : Int} (h : outOfRange 16 i = false) : (BitVec.ofInt 16 i).toInt = i := by
  obtain ⟨hlow, hhigh⟩ := outOfRange_16_eq_false.1 h
  exact BitVec.toInt_ofInt_eq_self (by decide) hlow hhigh

/-- The remainder of truncated division has no sign against the dividend (R341). -/
theorem tmod_mul_dividend_nonneg (n k : Int) : 0 ≤ n.tmod k * n := by
  obtain hn | hn := Int.le_total 0 n
  · exact mul_nonneg (Int.tmod_nonneg k hn) hn
  · have hr : 0 ≤ (-n).tmod k := Int.tmod_nonneg k (Int.neg_nonneg_of_nonpos hn)
    rw [Int.neg_tmod] at hr
    exact mul_nonneg_of_nonpos_of_nonpos (Int.nonpos_of_neg_nonneg hr) hn

theorem natAbs_tmod_lt (n : Int) {k : Int} (hk : k ≠ 0) : (n.tmod k).natAbs < k.natAbs := by
  rw [Int.natAbs_tmod]
  exact Nat.mod_lt _ (Int.natAbs_pos.2 hk)

/-- A signed remainder fits its register. -/
theorem toInt_ofInt_tmod (n : Int) {x : Word} (hx : x.toInt ≠ 0) :
    (BitVec.ofInt 16 (n.tmod x.toInt)).toInt = n.tmod x.toInt := by
  have hlt := natAbs_tmod_lt n hx
  have hbounds := word_toInt_bounds x
  exact toInt_ofInt_word (outOfRange_16_eq_false.2 (by omega))

/-- A signed quotient and remainder in their registers, by the rounding of R341. -/
theorem signed_quotient_remainder {n : Int} {x d : Word} (hx : x.toInt ≠ 0)
    (hq : outOfRange 16 (n.tdiv x.toInt) = false) (hd : d = BitVec.ofInt 16 (n.tmod x.toInt)) :
    (BitVec.ofInt 16 (n.tdiv x.toInt)).toInt * x.toInt + d.toInt = n ∧ d.toInt.natAbs < x.toInt.natAbs ∧
      0 ≤ d.toInt * n := by
  rw [hd, toInt_ofInt_word hq, toInt_ofInt_tmod n hx]
  exact ⟨Int.tdiv_mul_add_tmod n x.toInt, natAbs_tmod_lt n hx, tmod_mul_dividend_nonneg n x.toInt⟩

/-- The only overflow of IDIVS is $8000 ÷ $FFFF (R354). -/
theorem idivs_overflow_iff {d x : Word} (hx : x.toInt ≠ 0) :
    outOfRange 16 (d.toInt.tdiv x.toInt) = true ↔ d = 0x8000 ∧ x = 0xFFFF := by
  constructor
  · intro h
    have hd := word_toInt_bounds d
    have hq := outOfRange_16_eq_true.1 h
    have hle : 32768 ≤ d.toInt.natAbs / x.toInt.natAbs := by
      have : (d.toInt.tdiv x.toInt).natAbs = d.toInt.natAbs / x.toInt.natAbs := Int.natAbs_tdiv _ _
      omega
    have hmul : 32768 * x.toInt.natAbs ≤ d.toInt.natAbs := (Nat.le_div_iff_mul_le (Int.natAbs_pos.2 hx)).1 hle
    have hdmin : d.toInt = -32768 := by omega
    obtain hone | hneg : x.toInt = 1 ∨ x.toInt = -1 := by omega
    · rw [hone, Int.tdiv_one] at hq
      omega
    · exact ⟨BitVec.eq_of_toInt_eq hdmin, BitVec.eq_of_toInt_eq hneg⟩
  · rintro ⟨rfl, rfl⟩
    decide

section
variable {s : State}

theorem exec_edivs_of_zero (hx : s.x.toInt = 0) : exec .edivs s = .next (divideByZero s) := if_pos hx

theorem exec_edivs_of_overflow (hx : s.x.toInt ≠ 0) (hq : outOfRange 16 ((yd s).toInt.tdiv s.x.toInt) = true) :
    exec .edivs s = .next (overflowFlags
      ((s.setY (Config.freeWord s.free .result)).setD (Config.freeWord s.free .remainder))) :=
  (if_neg hx).trans (if_pos (outOfRange_16_eq_true.1 hq))

theorem exec_edivs_of_fits (hx : s.x.toInt ≠ 0) (hq : outOfRange 16 ((yd s).toInt.tdiv s.x.toInt) = false) :
    exec .edivs s = .next (quotientFlags
      ((s.setY (BitVec.ofInt 16 ((yd s).toInt.tdiv s.x.toInt))).setD
        (BitVec.ofInt 16 ((yd s).toInt.tmod s.x.toInt)))
      (BitVec.ofInt 16 ((yd s).toInt.tdiv s.x.toInt))) :=
  (if_neg hx).trans (if_neg (outOfRange_16_eq_true.not.1 (Bool.not_eq_true _ ▸ hq)))

theorem exec_idivs_of_zero (hx : s.x.toInt = 0) : exec .idivs s = .next (divideByZero s) := if_pos hx

theorem exec_idivs_of_overflow (hx : s.x.toInt ≠ 0) (hq : outOfRange 16 (s.d.toInt.tdiv s.x.toInt) = true) :
    exec .idivs s = .next (overflowFlags
      ((s.setX (Config.freeWord s.free .result)).setD (Config.freeWord s.free .remainder))) :=
  (if_neg hx).trans (if_pos ((idivs_overflow_iff hx).1 hq))

theorem exec_idivs_of_fits (hx : s.x.toInt ≠ 0) (hq : outOfRange 16 (s.d.toInt.tdiv s.x.toInt) = false) :
    exec .idivs s = .next (quotientFlags
      ((s.setX (BitVec.ofInt 16 (s.d.toInt.tdiv s.x.toInt))).setD (BitVec.ofInt 16 (s.d.toInt.tmod s.x.toInt)))
      (BitVec.ofInt 16 (s.d.toInt.tdiv s.x.toInt))) :=
  (if_neg hx).trans (if_neg ((idivs_overflow_iff hx).not.1 (Bool.not_eq_true _ ▸ hq)))

end

/-- Settles O36, by the outcomes of each instruction: a zero divisor, an overflow, and a quotient in range, where
quotient and remainder are those of division that rounds toward zero. -/
theorem signedDivisions : Obligations.SignedDivisions := by
  unfold Obligations.SignedDivisions
  refine ⟨fun s => ?_, fun s => ?_⟩
  · rw [← toInt_yd]
    by_cases hx : s.x.toInt = 0
    · exact ⟨_, exec_edivs_of_zero hx, readsSame_divideByZero s, rfl, fun _ => ⟨rfl, rfl, flags_divideByZero s⟩,
        fun h => absurd hx h, fun h => absurd hx h⟩
    cases hq : outOfRange 16 ((yd s).toInt.tdiv s.x.toInt) with
    | true =>
      exact ⟨_, exec_edivs_of_overflow hx hq, readsSame_setY_setD_setCcr s _ _ _, rfl, fun h => absurd h hx,
        fun _ h => absurd (hq.symm.trans h) (by decide), fun _ _ => flags_overflowFlags rfl⟩
    | false =>
      obtain ⟨hid, hlt, hsign⟩ := signed_quotient_remainder hx hq (d_setD_setCcr _ _ _)
      exact ⟨_, exec_edivs_of_fits hx hq, readsSame_setY_setD_setCcr s _ _ _, rfl, fun h => absurd h hx,
        fun _ _ => ⟨hid, hlt, hsign, flags_quotientFlags rfl _⟩, fun _ h => absurd (hq.symm.trans h) (by decide)⟩
  · by_cases hx : s.x.toInt = 0
    · exact ⟨_, exec_idivs_of_zero hx, readsSame_divideByZero s, rfl, fun _ => ⟨rfl, rfl, flags_divideByZero s⟩,
        fun h => absurd hx h, fun h => absurd hx h⟩
    cases hq : outOfRange 16 (s.d.toInt.tdiv s.x.toInt) with
    | true =>
      exact ⟨_, exec_idivs_of_overflow hx hq, readsSame_setX_setD_setCcr s _ _ _, rfl, fun h => absurd h hx,
        fun _ h => absurd (hq.symm.trans h) (by decide), fun _ _ => flags_overflowFlags rfl⟩
    | false =>
      obtain ⟨hid, hlt, hsign⟩ := signed_quotient_remainder hx hq (d_setD_setCcr _ _ _)
      exact ⟨_, exec_idivs_of_fits hx hq, readsSame_setX_setD_setCcr s _ _ _, rfl, fun h => absurd h hx,
        fun _ _ => ⟨hid, hlt, hsign, flags_quotientFlags rfl _⟩, fun _ h => absurd (hq.symm.trans h) (by decide)⟩

end Sys2Proof.Machine
end

section
/-! PROOF. Shifts and rotates (44_shift_rotate.md R371 to R395): what each operation makes of a number, the bit that it
shifts out, and the read-modify-write of A, B, memory or D that all of them are. -/

namespace Sys2Proof.Machine

/-! ## Results as numbers -/

theorem toNat_shiftLeft {w : Nat} (m : BitVec w) : (shiftLeft m).r.toNat = 2 * m.toNat % 2 ^ w := by
  change (m <<< 1).toNat = _
  rw [BitVec.toNat_shiftLeft, Nat.shiftLeft_eq, pow_one, Nat.mul_comm]

theorem toInt_shiftRightArith {w : Nat} (m : BitVec w) : (shiftRightArith m).r.toInt = m.toInt / 2 := by
  change (m.sshiftRight 1).toInt = _
  rw [BitVec.toInt_sshiftRight, Int.shiftRight_eq_div_pow, Nat.pow_one]
  rfl

theorem toNat_shiftRightLogic {w : Nat} (m : BitVec w) : (shiftRightLogic m).r.toNat = m.toNat / 2 := by
  change (m >>> 1).toNat = _
  rw [BitVec.toNat_ushiftRight, Nat.shiftRight_eq_div_pow, pow_one]

/-- Two fields side by side, as the sum of their places. -/
theorem toNat_append_eq_add {v w : Nat} (hi : BitVec v) (lo : BitVec w) :
    (hi ++ lo).toNat = hi.toNat * 2 ^ w + lo.toNat := by
  rw [BitVec.toNat_append, ← Nat.shiftLeft_add_eq_or_of_lt lo.isLt, Nat.shiftLeft_eq]

theorem toNat_rotateLeft (m : Byte) (c : Bool) : (rotateLeft m c).r.toNat = 2 * m.toNat % 256 + c.toNat := by
  change (m.extractLsb' 0 7 ++ BitVec.ofBool c).toNat = _
  rw [toNat_append_eq_add, BitVec.extractLsb'_toNat, Nat.shiftRight_zero, BitVec.toNat_ofBool]
  omega

theorem toNat_rotateRight (m : Byte) (c : Bool) : (rotateRight m c).r.toNat = m.toNat / 2 + 128 * c.toNat := by
  change (BitVec.ofBool c ++ m.extractLsb' 1 7).toNat = _
  rw [toNat_append_eq_add, BitVec.extractLsb'_toNat, Nat.shiftRight_eq_div_pow, BitVec.toNat_ofBool]
  have hm := m.isLt
  omega

/-! ## Flags by the bit shifted out -/

section
variable {w : Nat} {s t : State} {r m : BitVec w}

theorem shiftFlags_of_msb_out (h : t.ccr = (shifted r m.msb).putFlags s.ccr) :
    ShiftFlags s t r (decide (2 ^ (w - 1) ≤ m.toNat)) :=
  BitVec.msb_eq_decide m ▸ shiftFlags_of_ccr h

theorem shiftFlags_of_lsb_out (h : t.ccr = (shifted r (m.getLsbD 0)).putFlags s.ccr) :
    ShiftFlags s t r (decide (m.toNat % 2 = 1)) := by
  have hbit := getLsbD_eq_decide m 0
  rw [pow_zero, Nat.div_one] at hbit
  exact hbit ▸ shiftFlags_of_ccr h

end

/-! ## Read-modify-write with N, Z, V and C (R370, 41_arith.md R222) -/

/-- An operation on A, on B and on memory that may take C in is known by its result and flags `f`. -/
theorem modifies8_of_alu {ia ib : Instr} {im : Mem2 → Instr} (f : Bool → Byte → Alu 8)
    {P : State → State → Byte → Byte → Prop}
    (ha : ∀ s, exec ia s = .next (modifyA (f s.flagC) s)) (hb : ∀ s, exec ib s = .next (modifyB (f s.flagC) s))
    (hm : ∀ s m, exec (im m) s = .next (modifyByte (f s.flagC) m s))
    (hP : ∀ s t v, t.ccr = (f s.flagC v).putFlags s.ccr → P s t v (f s.flagC v).r) : Modifies8 ia ib im P := by
  refine ⟨fun s => ?_, fun s => ?_, fun s m => ?_⟩
  · exact ⟨_, ha s, hP s _ s.a rfl, readsSame_setCcr (OnlyIndexes.refl s) (sameMemory_setA s _) _, rfl⟩
  · exact ⟨_, hb s, hP s _ s.b rfl, readsSame_setCcr (OnlyIndexes.refl s) (sameMemory_setB s _) _, rfl⟩
  · have hu := onlyIndexes_mem2Update s m
    have hccr : (modifyByte (f s.flagC) m s).ccr = (f s.flagC (read8 s .operand (mem2Ea s m))).putFlags s.ccr := by
      rw [modifyByte, State.nzvc_ccr, store8_ccr, hu.ccr_eq]
    obtain ⟨hstored, honly⟩ := stored_store8 hu (sameMemory_setCcr (store8 (mem2Update s m) (mem2Ea s m) _) _)
    exact ⟨_, hm s m, _, hP s _ _ hccr, hstored, honly, (onlyStores_store8 _ _ _).setCcr _⟩

/-- An operation on D is known by its result and flags `f`. -/
theorem modifiesD_of_alu {i : Instr} (f : Word → Alu 16) {P : State → State → Word → Word → Prop}
    (hi : ∀ s, exec i s = .next (modifyD f s))
    (hP : ∀ s t v, t.ccr = (f v).putFlags s.ccr → P s t v (f v).r) : ModifiesD i P := by
  intro s
  rw [hi s]
  exact completes_setD_nzvc (OnlyIndexes.refl s) (f s.d) (P := fun t r => P s t s.d r) (hP s _ s.d rfl)

/-- Settles O37: every shift and rotate is a read-modify-write with the result and the flags of its operation; LSL is
ASL, and only the rotates take C in. -/
theorem shiftsAndRotates : Obligations.ShiftsAndRotates := by
  unfold Obligations.ShiftsAndRotates
  refine ⟨⟨?asl, ?lsl, ?asld, ?lsld, ?asr, ?lsr, ?lsrd⟩, ?rol, ?ror⟩
  case asl | lsl =>
    exact modifies8_of_alu (fun _ => shiftLeft) (fun s => rfl) (fun s => rfl) (fun s m => rfl)
      fun s t v h => ⟨toNat_shiftLeft v, shiftFlags_of_msb_out h⟩
  case asld | lsld =>
    exact modifiesD_of_alu shiftLeft (fun s => rfl) fun s t v h => ⟨toNat_shiftLeft v, shiftFlags_of_msb_out h⟩
  case asr =>
    exact modifies8_of_alu (fun _ => shiftRightArith) (fun s => rfl) (fun s => rfl) (fun s m => rfl)
      fun s t v h => ⟨toInt_shiftRightArith v, shiftFlags_of_lsb_out h⟩
  case lsr =>
    exact modifies8_of_alu (fun _ => shiftRightLogic) (fun s => rfl) (fun s => rfl) (fun s m => rfl)
      fun s t v h => ⟨toNat_shiftRightLogic v, shiftFlags_of_lsb_out h⟩
  case lsrd =>
    exact modifiesD_of_alu shiftRightLogic (fun s => rfl)
      fun s t v h => ⟨toNat_shiftRightLogic v, shiftFlags_of_lsb_out h⟩
  case rol =>
    exact modifies8_of_alu (fun c v => rotateLeft v c) (fun s => rfl) (fun s => rfl) (fun s m => rfl)
      fun s t v h => ⟨toNat_rotateLeft v s.flagC, shiftFlags_of_msb_out h⟩
  case ror =>
    exact modifies8_of_alu (fun c v => rotateRight v c) (fun s => rfl) (fun s => rfl) (fun s m => rfl)
      fun s t v h => ⟨toNat_rotateRight v s.flagC, shiftFlags_of_lsb_out h⟩

end Sys2Proof.Machine
end

section
/-! PROOF. Minimum and maximum, TBL and ETBL (45_fuzzy_minmax_mac_tbl.md R430 to R438, R451, R452): the number that each
operation computes, then the register or the bytes that it is written to, and the flags. -/

namespace Sys2Proof.Machine

/-! ## Minimum and maximum (R430 to R438) -/

section
variable {w : Nat} (hw : 0 < w) (a m : BitVec w)
include hw

/-- The borrow of accumulator minus memory says which of the two is smaller. -/
theorem subb_borrow_iff : (subb a m false).c = true ↔ a.toNat < m.toNat := by
  rw [(subb_flags hw a m false).2, decide_eq_true_eq, wideDiff, Bool.toNat_false]
  omega

/-- Taking memory on a borrow takes the larger number. -/
theorem toNat_larger : (if (subb a m false).c then m else a).toNat = max a.toNat m.toNat := by
  rw [ite_congr (propext (subb_borrow_iff hw a m)) (fun _ => rfl) fun _ => rfl]
  split <;> omega

/-- Taking the accumulator on a borrow takes the smaller number. -/
theorem toNat_smaller : (if (subb a m false).c then a else m).toNat = min a.toNat m.toNat := by
  rw [ite_congr (propext (subb_borrow_iff hw a m)) (fun _ => rfl) fun _ => rfl]
  split <;> omega

/-- The flags of accumulator minus memory, in a state with the flags of `s` (R430). -/
theorem diffFlags_nzvc {s r : State} (h : r.ccr = s.ccr) (q : BitVec w) (hq : IsDiff a m false q) :
    DiffFlags s (r.nzvc (subb a m false)) a m false q := by
  obtain ⟨hdiff, hflags⟩ := isDiff_and_diffFlags h hw a m false
  exact hq.eq hdiff ▸ hflags

end

/-- A number determines the register that holds it. -/
theorem eq_ofNat_of_toNat {w n : Nat} {v : BitVec w} (h : v.toNat = n) : v = BitVec.ofNat w n := by
  rw [← h, BitVec.ofNat_toNat, BitVec.setWidth_eq]

section
variable {s u : State} (hu : OnlyIndexes s u) (m : Byte) (v : Word) (ea : Word)
include hu

/-- MAXA and MINA: the number `r` into A, with the flags of A minus memory. -/
theorem completes_minmaxA {r : Byte} {n : Nat} (hr : r.toNat = n) :
    Completes (.next ((u.setA r).nzvc (subb s.a m false))) fun t => t.a.toNat = n ∧
      (∀ q, IsDiff s.a m false q → DiffFlags s t s.a m false q) ∧ ReadsSame s t ∧ t = { u with a := t.a, ccr := t.ccr } :=
  ⟨_, rfl, hr, diffFlags_nzvc (by decide) s.a m (r := u.setA r) hu.ccr_eq,
    readsSame_setCcr hu (sameMemory_setA u r) _, rfl⟩

/-- EMAXD and EMIND: the same for D. -/
theorem completes_minmaxD {r : Word} {n : Nat} (hr : r.toNat = n) :
    Completes (.next ((u.setD r).nzvc (subb s.d v false))) fun t => t.d.toNat = n ∧
      (∀ q, IsDiff s.d v false q → DiffFlags s t s.d v false q) ∧ ReadsSame s t ∧
      t = { u with a := t.a, b := t.b, ccr := t.ccr } := by
  have hd : ((u.setD r).nzvc (subb s.d v false)).d = r := d_setD_setCcr u r _
  exact ⟨_, rfl, (congrArg BitVec.toNat hd).trans hr, diffFlags_nzvc (by decide) s.d v (r := u.setD r) hu.ccr_eq,
    readsSame_setCcr hu (sameMemory_setD u r) _, rfl⟩

/-- MAXM and MINM: the number into memory. -/
theorem completes_minmaxByte {r : Byte} {n : Nat} (hr : r.toNat = n) :
    Completes (.next ((store8 u ea r).nzvc (subb s.a m false))) fun t =>
      Stored s t ea (BitVec.ofNat 8 n) ∧ StoresOnly s t [ea] ∧
      (∀ q, IsDiff s.a m false q → DiffFlags s t s.a m false q) ∧ OnlyStores { u with ccr := t.ccr } t := by
  obtain ⟨hstored, honly⟩ := stored_store8 hu (sameMemory_setCcr (store8 u ea r) ((subb s.a m false).putFlags _))
  exact ⟨_, rfl, eq_ofNat_of_toNat hr ▸ hstored, honly,
    diffFlags_nzvc (by decide) s.a m ((store8_ccr u ea r).trans hu.ccr_eq), (onlyStores_store8 u ea r).setCcr _⟩

/-- EMAXM and EMINM: the same for a word. -/
theorem completes_minmaxWord {r : Word} {n : Nat} (hr : r.toNat = n) :
    Completes (.next ((store16 u ea r).nzvc (subb s.d v false))) fun t =>
      StoredWord s t ea (BitVec.ofNat 16 n) ∧ StoresOnly s t [ea, ea + 1] ∧
      (∀ q, IsDiff s.d v false q → DiffFlags s t s.d v false q) ∧ OnlyStores { u with ccr := t.ccr } t := by
  obtain ⟨hstored, honly⟩ := storedWord_store16 hu (sameMemory_setCcr (store16 u ea r) ((subb s.d v false).putFlags _))
  exact ⟨_, rfl, eq_ofNat_of_toNat hr ▸ hstored, honly,
    diffFlags_nzvc (by decide) s.d v ((store16_ccr u ea r).trans hu.ccr_eq), (onlyStores_store16 u ea r).setCcr _⟩

end

/-- Settles O44: each instruction writes the larger or the smaller number, as the borrow says, after the update of its
operand. -/
theorem minimumAndMaximum : Obligations.MinimumAndMaximum := by
  unfold Obligations.MinimumAndMaximum
  refine ⟨fun s m => ?_, fun s m => ?_⟩
  · have hu := onlyIndexes_idxIUpdate s m
    have hmax := toNat_larger (by decide) s.a (read8 s .operand (idxIEa s m))
    have hmin := toNat_smaller (by decide) s.a (read8 s .operand (idxIEa s m))
    exact ⟨completes_minmaxA hu _ hmax, completes_minmaxA hu _ hmin, completes_minmaxByte hu _ _ hmax,
      completes_minmaxByte hu _ _ hmin⟩
  · have hu := onlyIndexes_idxIUpdate s m
    have hmax := toNat_larger (by decide) s.d (read16 s .operand (idxIEa s m))
    have hmin := toNat_smaller (by decide) s.d (read16 s .operand (idxIEa s m))
    exact ⟨completes_minmaxD hu _ hmax, completes_minmaxD hu _ hmin, completes_minmaxWord hu _ _ hmax,
      completes_minmaxWord hu _ _ hmin⟩

/-! ## TBL and ETBL (R451, R452) -/

/-- The interpolated value lies between the two entries, so it fits the width of either. -/
theorem interpolate_bounds {w : Nat} (y1 y2 : BitVec w) (b : Byte) :
    0 ≤ interpolate y1 y2 b / 256 ∧ interpolate y1 y2 b / 256 < 2 ^ w := by
  have h1 := y1.isLt
  have h2 := y2.isLt
  have hb := b.isLt
  have hp : (2 : Int) ^ w = ((2 ^ w : Nat) : Int) := by simp
  have hconvex : interpolate y1 y2 b = y1.toNat * (256 - b.toNat) + b.toNat * y2.toNat := by
    rw [interpolate]
    ring
  rw [hp]
  have hlow : 0 ≤ interpolate y1 y2 b := by
    rw [hconvex]
    have : (0 : Int) ≤ 256 - b.toNat := by omega
    positivity
  have hhigh : interpolate y1 y2 b ≤ ((2 ^ w : Nat) - 1 : Int) * 256 := by
    rw [hconvex]
    have hb' : (0 : Int) ≤ 256 - b.toNat := by omega
    have e1 : (y1.toNat : Int) * (256 - b.toNat) ≤ ((2 ^ w : Nat) - 1 : Int) * (256 - b.toNat) :=
      Int.mul_le_mul_of_nonneg_right (by omega) hb'
    have e2 : (b.toNat : Int) * y2.toNat ≤ b.toNat * ((2 ^ w : Nat) - 1 : Int) :=
      Int.mul_le_mul_of_nonneg_left (by omega) (by omega)
    linarith
  omega

/-- The result as a number, rounded down (D13). -/
theorem toNat_interpolated {w : Nat} (y1 y2 : BitVec w) (b : Byte) :
    ((BitVec.ofInt w (interpolate y1 y2 b / 256)).toNat : Int) = interpolate y1 y2 b / 256 := by
  obtain ⟨hlow, hhigh⟩ := interpolate_bounds y1 y2 b
  have hp : (2 : Int) ^ w = ((2 ^ w : Nat) : Int) := by simp
  rw [hp] at hhigh
  rw [BitVec.toNat_ofInt, Int.emod_eq_of_lt hlow hhigh, Int.toNat_of_nonneg hlow]

/-- C on an HCS12 is the first fraction bit (R451). -/
theorem roundUpFlag_hcs12 {s : State} (h : s.cfg.variant = .hcs12) (t : Int) :
    roundUpFlag s t = decide (128 ≤ t % 256) := by
  simp only [roundUpFlag, h]
  rw [Bool.eq_iff_iff, beq_iff_eq, decide_eq_true_eq]
  omega

/-- N and Z of a result and C, in a state with the flags of `s`; V is kept. -/
theorem flags_putNZC_result {s t : State} {w : Nat} {r : BitVec w} {c : Bool}
    (h : t.ccr = putNZC s.ccr (isNeg r) (isZero r) c) : FlagsNZVC s t (negative r) (zero r) s.flagV c := by
  rw [← isNeg_eq_negative, ← isZero_eq_zero]
  exact flags_putNZC s t _ _ _ h

/-- What TBL and ETBL do beside their register: the update of the operand leads from `s` to `u`, the write of the
register from `u` to `r`; H and V are kept, and C is `roundUpFlag`. -/
theorem interpolate_spec {s u r : State} (hu : OnlyIndexes s u) (hr : SameMemory u r) {w : Nat} (y1 y2 : BitVec w) :
    let v := BitVec.ofInt w (interpolate y1 y2 s.b / 256)
    let t := r.setCcr (putNZC s.ccr (isNeg v) (isZero v) (roundUpFlag s (interpolate y1 y2 s.b)))
    (v.toNat : Int) = interpolate y1 y2 s.b / 256 ∧ FlagsNZVC s t (negative v) (zero v) s.flagV t.flagC ∧
      (s.cfg.variant = .hcs12 → t.flagC = decide (128 ≤ interpolate y1 y2 s.b % 256)) ∧ ReadsSame s t := by
  intro v t
  have hflags : FlagsNZVC s t (negative v) (zero v) s.flagV _ := flags_putNZC_result rfl
  obtain ⟨-, -, -, -, -, -, -, hc⟩ := id hflags
  exact ⟨toNat_interpolated y1 y2 s.b, hc ▸ hflags, fun hv => hc.trans (roundUpFlag_hcs12 hv _),
    readsSame_setCcr hu hr _⟩

/-- Settles O46: the value fits its register, and the flags are those of `interpolate_spec`. -/
theorem tableInterpolation : Obligations.TableInterpolation := by
  unfold Obligations.TableInterpolation
  refine ⟨fun s m => ?_, fun s m => ?_⟩
  · obtain ⟨hvalue, hflags, hc, hreads⟩ := interpolate_spec (onlyIndexes_idxUpdate s m) (sameMemory_setA _ _)
      (read8 s .operand (idxEa s s.pc m)) (read8 s .second (idxEa s s.pc m + 1))
    exact ⟨_, rfl, hvalue, hflags, hc, hreads, rfl⟩
  · have hd := d_setD_setCcr (idxUpdate s m)
    obtain ⟨hvalue, hflags, hc, hreads⟩ := interpolate_spec (onlyIndexes_idxUpdate s m) (sameMemory_setD _ _)
      (read16 s .operand (idxEa s s.pc m)) (read16 s .second (idxEa s s.pc m + 2))
    exact ⟨_, rfl, (congrArg (fun v : Word => (v.toNat : Int)) (hd _ _)).trans hvalue, (hd _ _).symm ▸ hflags, hc,
      hreads, rfl⟩

end Sys2Proof.Machine
end

section
/-! PROOF. MEM (45_fuzzy_minmax_mac_tbl.md R411): the grade as a number, and the state it is stored in. -/

namespace Sys2Proof.Machine

/-! ## MEM (R411) -/

section
variable {a p1 p2 : Byte} (s1 s2 : Byte)

theorem ult_iff_toNat {w : Nat} (x y : BitVec w) : x.ult y = true ↔ x.toNat < y.toNat := by
  rw [BitVec.ult, decide_eq_true_eq]

/-- Outside the trapezoid the grade is 0. -/
theorem memGrade_of_outside (h : ¬ (p1.toNat ≤ a.toNat ∧ a.toNat ≤ p2.toNat)) : memGrade a p1 p2 s1 s2 = 0 := by
  have ho : (a.ult p1 || p2.ult a) = true := by
    rw [Bool.or_eq_true, ult_iff_toNat, ult_iff_toNat]
    omega
  simp only [memGrade, ho, if_true, Bool.not_true, Bool.and_false, Bool.false_eq_true, if_false]
  split <;> rfl

section
variable (hl : p1.toNat ≤ a.toNat) (hr : a.toNat ≤ p2.toNat)
include hl hr

/-- Inside it the rising side counts unless it is vertical or above $FF there, and then the falling side likewise. -/
theorem toNat_memGrade_of_inside : (memGrade a p1 p2 s1 s2).toNat =
    if s1.toNat = 0 ∨ 255 < (a.toNat - p1.toNat) * s1.toNat then
      if s2.toNat = 0 ∨ 255 < (p2.toNat - a.toNat) * s2.toNat then 255 else (p2.toNat - a.toNat) * s2.toNat
    else (a.toNat - p1.toNat) * s1.toNat := by
  have ho : (a.ult p1 || p2.ult a) = false := by
    rw [Bool.or_eq_false_iff, BitVec.ult, BitVec.ult, decide_eq_false_iff_not, decide_eq_false_iff_not]
    omega
  have hup : (zext16 (a - p1) * zext16 s1).toNat = (a.toNat - p1.toNat) * s1.toNat := by
    rw [toNat_zext16_mul, BitVec.toNat_sub_of_le hl]
  have hdown : (zext16 (p2 - a) * zext16 s2).toNat = (p2.toNat - a.toNat) * s2.toNat := by
    rw [toNat_zext16_mul, BitVec.toNat_sub_of_le hr]
  have hzero (v : Byte) : (v == 0) = true ↔ v.toNat = 0 := by
    rw [beq_iff_eq, ← BitVec.toNat_inj]
    rfl
  have hff : (0x00FF : Word).toNat = 255 := rfl
  simp only [memGrade, ho, Bool.false_eq_true, if_false, Bool.not_false, Bool.and_true, Bool.or_eq_true, hzero,
    ult_iff_toNat, hup, hdown, hff]
  split
  · split
    · rfl
    · rw [toNat_loByte, hdown]
      omega
  · rw [toNat_loByte, hup]
    omega

end
end

/-- The flags that MEM and WAV leave undefined (U2, U4); S, X and I are kept. -/
theorem flags_freeHNZVC {s t : State} (h : t.ccr = freeHNZVC s) : ∃ h n z v c, FlagsHNZVC s t h n z v c :=
  ⟨_, _, _, _, _, flags_putHNZVC s t _ _ _ _ _ h⟩

/-- The state in which MEM leaves the machine with grade `g`. -/
def graded (s : State) (g : Byte) : State :=
  (((store8 s s.y g).setY (s.y + 1)).setX (s.x + 4)).setCcr (freeHNZVC s)

/-- What MEM does beside the grade. -/
theorem graded_spec (s : State) (g : Byte) : let t := graded s g
    Stored s t s.y g ∧ StoresOnly s t [s.y] ∧ (∃ h n z v c, FlagsHNZVC s t h n z v c) ∧
      OnlyStores { s with x := s.x + 4, y := s.y + 1, ccr := t.ccr } t := by
  have hmem : SameMemory (store8 s s.y g) (graded s g) := ⟨rfl, rfl, rfl, rfl, rfl, rfl⟩
  obtain ⟨hstored, honly⟩ := stored_store8 (OnlyIndexes.refl s) hmem
  exact ⟨hstored, honly, flags_freeHNZVC rfl,
    congrArg (fun t : State => ((t.setY (s.y + 1)).setX (s.x + 4)).setCcr (freeHNZVC s)) (onlyStores_store8 s s.y g)⟩

/-- MEM reads its four parameters as two words (R411). -/
theorem exec_mem_eq (s : State) : exec .mem s = .next (graded s (memGrade s.a (read8 s .operand s.x)
    (read8 s .operand (s.x + 1)) (read8 s .second (s.x + 2)) (read8 s .second (s.x + 3)))) := by
  have h : exec .mem s = execMem s := rfl
  have hnext : s.x + 2 + 1 = s.x + 3 := by bv_omega
  rw [h, execMem, graded]
  simp only [read16, hiByte_joinBytes, loByte_joinBytes, hnext]

/-- Settles O38: the stored grade is `memGrade`, 0 outside the trapezoid and inside it the side that counts there. -/
theorem memStoresTheGradeOfMembership : Obligations.MemStoresTheGradeOfMembership := by
  unfold Obligations.MemStoresTheGradeOfMembership
  intro s
  obtain ⟨hstored, honly, hflags, hframe⟩ := graded_spec s (memGrade s.a (read8 s .operand s.x)
    (read8 s .operand (s.x + 1)) (read8 s .second (s.x + 2)) (read8 s .second (s.x + 3)))
  refine ⟨_, exec_mem_eq s, _, hstored, honly, fun h => ?_, fun ⟨hl, hr⟩ hs hu => ?_, fun ⟨hl, hr⟩ hs hd => ?_,
    fun ⟨hl, hr⟩ hs h2 hd => ?_, hflags, hframe⟩
  · rw [memGrade_of_outside _ _ h]
    rfl
  · rw [toNat_memGrade_of_inside _ _ hl hr, if_neg (by omega)]
  · rw [toNat_memGrade_of_inside _ _ hl hr, if_pos hs, if_pos hd]
  · rw [toNat_memGrade_of_inside _ _ hl hr, if_pos hs, if_neg (by omega)]

end Sys2Proof.Machine
end

section
/-! PROOF. EMACS (45_fuzzy_minmax_mac_tbl.md R445): several bytes written one after the other, then the 32-bit addition in
integers. -/

namespace Sys2Proof.Machine

/-! ## Several bytes written, each located in the map of the start -/

/-- `t` is `s` with the bytes of `ps` written in this order, none of them at a page register. -/
structure Wrote (s t : State) (ps : List (Word × Byte)) : Prop where
  cfg : t.cfg = s.cfg
  windows : t.windows = s.windows
  noPage : ∀ a ∈ ps.map Prod.fst, ¬ isPageRegister s a
  only : StoresOnly s t (ps.map Prod.fst)
  stored : ∀ p ∈ ps, (∀ b ∈ ps.map Prod.fst, b ≠ p.1 → slotAt s b ≠ slotAt s p.1) → Stored s t p.1 p.2

section
variable {s t r : State} {ps : List (Word × Byte)}

theorem Wrote.nil (s : State) : Wrote s s [] := by
  refine ⟨rfl, rfl, ?_, StoresOnly.refl s, ?_⟩ <;> simp

theorem Wrote.locate_eq (h : Wrote s t ps) (x : Word) : locate t x = locate s x :=
  h.only.locate_eq h.cfg h.windows h.noPage x

theorem Wrote.of_sameMemory (h : Wrote s t ps) (hr : SameMemory t r) : Wrote s r ps := by
  obtain ⟨-, hc, hw, -⟩ := id hr
  exact ⟨hc.trans h.cfg, hw.trans h.windows, h.noPage, h.only.of_sameMemory (SameMemory.refl s) hr,
    fun p hp hne => (h.stored p hp hne).of_sameMemory (SameMemory.refl s) hr⟩

/-- One more byte, at an address that is not yet among them: it reads back, and so does every earlier one that it does
not share a slot with. -/
theorem Wrote.writeTarget (h : Wrote s t ps) {a : Word} (ha : ¬ isPageRegister s a) (hnew : a ∉ ps.map Prod.fst)
    (v : Byte) : Wrote s (writeTarget t (locate s a) v) (ps ++ [(a, v)]) := by
  have hmap := h.locate_eq
  refine ⟨(writeTarget_cfg _ _ _).trans h.cfg, (writeTarget_windows _ _ _).trans h.windows, ?_, ?_, ?_⟩
  · simpa [or_imp, forall_and] using ⟨by simpa using h.noPage, ha⟩
  · simpa using h.only.writeTarget h.cfg h.windows a v
  · intro p hp hne
    rw [List.map_append, List.forall_mem_append] at hne
    obtain ⟨hold, hlast⟩ := hne
    rcases List.mem_append.1 hp with hp | hp
    · have hpa : a ≠ p.1 := fun e => hnew (e ▸ List.mem_map_of_mem hp)
      have hslot : slotAt s a ≠ slotAt s p.1 := hlast a (by simp) hpa
      intro k hk
      have hfree (j : Nat) (e : locate s a = .cell j true) : slotAt t p.1 ≠ .cell j := by
        rw [slotAt, hmap, ← slotAt, ← slotAt_of_cell e]
        exact hslot.symm
      exact (byteAt_writeTarget_of_ne ha hfree v).trans (h.stored p hp hold k hk)
    · obtain rfl := List.mem_singleton.1 hp
      intro k hk
      rw [hk]
      exact byteAt_writeTarget_same ((hmap a).trans hk) v

/-- A word stored by the CPU, at two new addresses. -/
theorem Wrote.store16 (h : Wrote s t ps) {a : Word} (ha : ¬ isPageRegister s a) (hb : ¬ isPageRegister s (a + 1))
    (hnew : a ∉ ps.map Prod.fst) (hnew' : a + 1 ∉ ps.map Prod.fst) (v : Word) :
    Wrote s (store16 t a v) (ps ++ [(a, hiByte v), (a + 1, loByte v)]) := by
  have hne : a + 1 ≠ a := by bv_omega
  have h2 := (h.writeTarget ha hnew (hiByte v)).writeTarget hb (by simpa [hne] using hnew') (loByte v)
  rw [← h.locate_eq a, ← h.locate_eq (a + 1), List.append_assoc] at h2
  exact h2.of_sameMemory (sameMemory_logStore _ _)

theorem Wrote.storedBytes (h : Wrote s t ps) : StoredBytes s t (ps.map Prod.fst) (ps.map Prod.snd) := by
  intro p hp hne
  rw [List.zip_map', List.map_id''] at hp
  · exact h.stored p hp hne
  · exact fun _ => rfl

end

/-! ## EMACS (R445) -/

section
variable (m i : BitVec 32)

/-- The sum modulo 2^32 (R445). -/
theorem add_eq_ofInt : m + i = BitVec.ofInt 32 (m.toInt + i.toInt) := by
  rw [BitVec.ofInt_add, BitVec.ofInt_toInt, BitVec.ofInt_toInt]

/-- V of EMACS is the signed overflow of the addition. -/
theorem emacs_overflow : (m.msb && i.msb && !(m + i).msb || !m.msb && !i.msb && (m + i).msb) =
    outOfRange 32 (m.toInt + i.toInt) := by
  have hr : (addc m i false).r = m + i := by simp [addc]
  have hsum : signedSum m i false = m.toInt + i.toInt := by simp [signedSum]
  have hv : (addc m i false).v = outOfRange 32 (signedSum m i false) := (addc_flags (by decide) m i false).1
  rw [← hr, ← hsum, ← hv]
  rfl

/-- C of EMACS is the carry out of bit 15. -/
theorem emacs_carry : (m.getLsbD 15 && i.getLsbD 15 || i.getLsbD 15 && !(m + i).getLsbD 15 ||
    !(m + i).getLsbD 15 && m.getLsbD 15) = decide (65536 ≤ (m.toNat : Int) % 65536 + i.toInt % 65536) := by
  have hr : (m + i).toNat = (m.toNat + i.toNat) % 4294967296 := BitVec.toNat_add m i
  rw [toInt_emod_65536, Bool.eq_iff_iff]
  simp only [getLsbD_15_eq_decide, Bool.or_eq_true, Bool.and_eq_true, Bool.not_eq_true', decide_eq_true_eq,
    decide_eq_false_iff_not, hr]
  omega

end

/-- The flags of EMACS. -/
theorem flags_emacsFlags {s u : State} (h : u.ccr = s.ccr) (m i : BitVec 32) :
    FlagsNZVC s (emacsFlags u m i (m + i)) (negative (m + i)) (zero (m + i)) (outOfRange 32 (m.toInt + i.toInt))
      (decide (65536 ≤ (m.toNat : Int) % 65536 + i.toInt % 65536)) := by
  rw [← isNeg_eq_negative, ← isZero_eq_zero, ← emacs_overflow, ← emacs_carry]
  apply flags_putNZVC
  rw [emacsFlags, State.setCcr_ccr, h]

/-- The bytes of words, by the model's halves. -/
theorem bytesOfWords_cons (w : Word) (ws : List Word) :
    bytesOfWords (w :: ws) = hiByte w :: loByte w :: bytesOfWords ws := by
  rw [bytesOfWords, hiByte_eq, loByte_eq]

/-- The high and the low word of a 32-bit number. -/
theorem extractLsb'_words (r : BitVec 32) :
    r.extractLsb' 16 16 = BitVec.ofNat 16 (r.toNat / 65536) ∧ r.extractLsb' 0 16 = BitVec.ofNat 16 r.toNat := by
  have h (k : Nat) : r.extractLsb' k 16 = BitVec.ofNat 16 (r.toNat / 2 ^ k) := by
    apply BitVec.eq_of_toNat_eq
    rw [BitVec.extractLsb'_toNat, BitVec.toNat_ofNat, Nat.shiftRight_eq_div_pow]
  exact ⟨h 16, by simpa using h 0⟩

/-- Two words stored one after the other, at four addresses of which none reaches a page register. -/
theorem wrote_two_words {s : State} {a : Word} (h : ∀ k < 4, ¬ isPageRegister s (a + BitVec.ofNat 16 k)) (v w : Word) :
    Wrote s (store16 (store16 s a v) (a + 2) w)
      [(a, hiByte v), (a + 1, loByte v), (a + 2, hiByte w), (a + 3, loByte w)] := by
  have h0 : ¬ isPageRegister s a := by simpa using h 0 (by decide)
  have h1 : ¬ isPageRegister s (a + 1) := h 1 (by decide)
  have h2 : ¬ isPageRegister s (a + 2) := h 2 (by decide)
  have h3 : ¬ isPageRegister s (a + 2 + 1) := by simpa [BitVec.add_assoc] using h 3 (by decide)
  have hfirst := (Wrote.nil s).store16 h0 h1 List.not_mem_nil List.not_mem_nil v
  have hboth := hfirst.store16 h2 h3 (by simp) (by simp; bv_omega) w
  rwa [show a + 2 + 1 = a + 3 by bv_omega] at hboth

/-- Settles O45: the product is exact, the sum is that of the 32-bit addition, and its two words are stored at four
distinct addresses. -/
theorem emacsAccumulatesTheSignedProduct : Obligations.EmacsAccumulatesTheSignedProduct := by
  unfold Obligations.EmacsAccumulatesTheSignedProduct
  intro s addr
  have hprod : (emacsProduct s).toInt = (read16 s .operand s.x).toInt * (read16 s .second s.y).toInt :=
    toInt_signExtend_mul _ _
  let r := emacsAccumulator s addr + emacsProduct s
  let u := store16 (store16 s addr (r.extractLsb' 16 16)) (addr + 2) (r.extractLsb' 0 16)
  have hu : OnlyStores s u := (onlyStores_store16 s _ _).trans (onlyStores_store16 _ _ _)
  have hccr : u.ccr = s.ccr := by rw [hu]
  refine ⟨emacsFlags u _ _ r, rfl, r, ?_, ?_, ?_, ?_⟩
  · rw [← hprod]
    exact add_eq_ofInt _ _
  · rw [← hprod]
    exact flags_emacsFlags hccr _ _
  · exact hu.setCcr _
  · intro hpage
    obtain ⟨hhigh, hlow⟩ := extractLsb'_words r
    have hwrote := (wrote_two_words hpage _ _).of_sameMemory 
      (sameMemory_setCcr u (emacsFlags u (emacsAccumulator s addr) (emacsProduct s) r).ccr)
    rw [← hhigh, ← hlow, bytesOfWords_cons, bytesOfWords_cons]
    exact ⟨hwrote.storedBytes, hwrote.only⟩

end Sys2Proof.Machine
end

section
/-! PROOF. WAV and wavr (45_fuzzy_minmax_mac_tbl.md R415, R416): what one pass does to the sums, then all passes that B
counts. -/

namespace Sys2Proof.Machine

/-! ## Sums -/

theorem sumTo_succ_left (f : Nat → Nat) (n : Nat) : sumTo f (n + 1) = f 0 + sumTo (fun k => f (k + 1)) n := by
  induction n with
  | zero => simp [sumTo]
  | succ n ih => rw [sumTo, ih, sumTo, Nat.add_assoc]

theorem sumTo_le {f : Nat → Nat} {c : Nat} (h : ∀ k, f k ≤ c) (n : Nat) : sumTo f n ≤ n * c := by
  induction n with
  | zero => simp [sumTo]
  | succ n ih =>
    have := h n
    rw [sumTo, Nat.succ_mul]
    omega

/-! ## Operands -/

section
variable {s t : State}

/-- The operands depend on X, Y, memory and the draw counter alone. -/
theorem wavS_shift (h : SameMemory s t) (he : t.earlier = s.earlier) {j : Nat} (hf : t.free = s.free + j)
    (hx : t.x = s.x + BitVec.ofNat 16 j) (k : Nat) : wavS t k = wavS s (k + j) := by
  obtain ⟨hm, hc, hw, hp, hd, hpe⟩ := h
  have haddr : t.x + BitVec.ofNat 16 k = s.x + BitVec.ofNat 16 (k + j) := by
    rw [hx, BitVec.add_assoc, ← BitVec.ofNat_add, Nat.add_comm j k]
  have hfree : t.free + k = s.free + (k + j) := by omega
  rw [wavS, wavS, haddr]
  exact congrArg BitVec.toNat (read8_congr (s := { s with free := s.free + (k + j) }) (t := { t with free := t.free + k })
    hm hc hw hp hd hpe hfree he .operand _)

theorem wavF_shift (h : SameMemory s t) (he : t.earlier = s.earlier) {j : Nat} (hf : t.free = s.free + j)
    (hy : t.y = s.y + BitVec.ofNat 16 j) (k : Nat) : wavF t k = wavF s (k + j) := by
  obtain ⟨hm, hc, hw, hp, hd, hpe⟩ := h
  have haddr : t.y + BitVec.ofNat 16 k = s.y + BitVec.ofNat 16 (k + j) := by
    rw [hy, BitVec.add_assoc, ← BitVec.ofNat_add, Nat.add_comm j k]
  have hfree : t.free + k = s.free + (k + j) := by omega
  rw [wavF, wavF, haddr]
  exact congrArg BitVec.toNat (read8_congr (s := { s with free := s.free + (k + j) }) (t := { t with free := t.free + k })
    hm hc hw hp hd hpe hfree he .second _)

end

section
variable (s : State)

theorem wavS_zero : wavS s 0 = (read8 s .operand s.x).toNat := by simp [wavS]

theorem wavF_zero : wavF s 0 = (read8 s .second s.y).toNat := by simp [wavF]

theorem wavS_le (k : Nat) : wavS s k ≤ 255 := Nat.le_of_lt_succ (BitVec.isLt _)

theorem wavF_le (k : Nat) : wavF s k ≤ 255 := Nat.le_of_lt_succ (BitVec.isLt _)

theorem wavS_mul_wavF_le (k : Nat) : wavS s k * wavF s k ≤ 65025 :=
  Nat.mul_le_mul (wavS_le s k) (wavF_le s k)

/-! ## One pass -/

/-- The sums and pointers after the body of the loop, with B and the results still to be set. -/
def wavAccumulate : State :=
  let sop := wavSum s + (read8 s .operand s.x).setWidth 32 * (read8 s .second s.y).setWidth 32
  nextDraw { s with
    x := s.x + 1
    y := s.y + 1
    tmp1 := sop.extractLsb' 16 16
    tmp2 := sop.extractLsb' 0 16
    tmp3 := s.tmp3 + zext16 (read8 s .second s.y) }

theorem wavSum_wavAccumulate : (wavSum (wavAccumulate s)).toNat =
    ((wavSum s).toNat + wavS s 0 * wavF s 0) % 2 ^ 32 := by
  have hjoin (v : BitVec 32) : v.extractLsb' 16 16 ++ v.extractLsb' 0 16 = v := by
    apply BitVec.eq_of_toNat_eq
    rw [toNat_append_eq_add, BitVec.extractLsb'_toNat, BitVec.extractLsb'_toNat, Nat.shiftRight_eq_div_pow,
      Nat.shiftRight_eq_div_pow]
    have := v.isLt
    omega
  have hproduct : ((read8 s .operand s.x).setWidth 32 * (read8 s .second s.y).setWidth 32 : BitVec 32).toNat =
      wavS s 0 * wavF s 0 := by
    have := wavS_mul_wavF_le s 0
    rw [wavS_zero, wavF_zero] at *
    rw [BitVec.toNat_mul, BitVec.toNat_setWidth_of_le (by decide), BitVec.toNat_setWidth_of_le (by decide)]
    omega
  have hsum : wavSum (wavAccumulate s) = _ := hjoin _
  rw [hsum, BitVec.toNat_add, hproduct]

theorem tmp3_wavAccumulate : (wavAccumulate s).tmp3.toNat = (s.tmp3.toNat + wavF s 0) % 65536 := by
  have h : (wavAccumulate s).tmp3 = s.tmp3 + zext16 (read8 s .second s.y) := rfl
  rw [h, BitVec.toNat_add, toNat_zext16, wavF_zero]

/-- The last pass gives the results. -/
theorem wavPass_of_zero (h : s.b = 0) : wavPass s = finished (((((wavAccumulate s).setY (wavAccumulate s).tmp1).setD
    (wavAccumulate s).tmp2).setX (wavAccumulate s).tmp3)) := if_pos h

/-- Every other one counts B down. -/
theorem wavPass_of_ne_zero (h : s.b ≠ 0) : wavPass s = (wavAccumulate s).setB (s.b - 1) := if_neg h

end

/-! ## All passes -/

/-- `t` is `s` at the end of WAV, with the sum of products `p` and the sum of weights `q`; the flags are yet to be set. -/
def WavDone (s t : State) (p q : Nat) : Prop :=
  t.y.toNat * 65536 + t.d.toNat = p % 2 ^ 32 ∧ t.x.toNat = q % 65536 ∧
  t = { s with a := t.a, b := t.b, x := t.x, y := t.y, tmp1 := t.tmp1, tmp2 := t.tmp2, tmp3 := t.tmp3,
               progress := .none, free := t.free }

theorem wavDone_of_zero {s : State} (h : s.b = 0) :
    WavDone s (wavPass s) ((wavSum s).toNat + wavS s 0 * wavF s 0) (s.tmp3.toNat + wavF s 0) := by
  have hd (u : State) : (finished (((u.setY u.tmp1).setD u.tmp2).setX u.tmp3)).d = u.tmp2 := joinBytes_hiByte_loByte _
  rw [wavPass_of_zero s h]
  refine ⟨?_, tmp3_wavAccumulate s, rfl⟩
  rw [hd, ← wavSum_wavAccumulate, wavSum, toNat_append_eq_add]
  rfl

/-- A pass that is not the last adds the first operands to the sums of the passes after it. -/
theorem wavDone_of_ne_zero {s t : State} (hb : s.b ≠ 0) {k : Nat} (h : let u := wavPass s
      WavDone u t ((wavSum u).toNat + sumTo (fun j => wavS u j * wavF u j) k) (u.tmp3.toNat + sumTo (wavF u) k)) :
    WavDone s t ((wavSum s).toNat + sumTo (fun j => wavS s j * wavF s j) (k + 1))
      (s.tmp3.toNat + sumTo (wavF s) (k + 1)) := by
  simp only [wavPass_of_ne_zero s hb] at h
  obtain ⟨hproducts, hweights, hframe⟩ := h
  have hmem : SameMemory s ((wavAccumulate s).setB (s.b - 1)) := ⟨rfl, rfl, rfl, rfl, rfl, rfl⟩
  have hS : wavS ((wavAccumulate s).setB (s.b - 1)) = fun j => wavS s (j + 1) := funext (wavS_shift hmem rfl rfl rfl)
  have hF : wavF ((wavAccumulate s).setB (s.b - 1)) = fun j => wavF s (j + 1) := funext (wavF_shift hmem rfl rfl rfl)
  have hsum : (wavSum ((wavAccumulate s).setB (s.b - 1))).toNat = _ := wavSum_wavAccumulate s
  rw [hsum, hS, hF, Nat.mod_add_mod, Nat.add_assoc] at hproducts
  rw [State.setB_tmp3, tmp3_wavAccumulate, hF, Nat.mod_add_mod, Nat.add_assoc] at hweights
  rw [WavDone, sumTo_succ_left, sumTo_succ_left]
  exact ⟨hproducts, hweights, hframe⟩

/-- B + 1 passes finish the instruction. -/
theorem wavDone_wavLoop {n k : Nat} {s : State} (hp : s.progress = .wav) (hk : s.b.toNat = k) (hn : k < n) :
    WavDone s (wavLoop n s) ((wavSum s).toNat + sumTo (fun j => wavS s j * wavF s j) (k + 1))
      (s.tmp3.toNat + sumTo (wavF s) (k + 1)) := by
  induction n generalizing s k with
  | zero => exact absurd hn (Nat.not_lt_zero k)
  | succ n ih =>
    by_cases hb : s.b = 0
    · have hlast : (wavPass s).progress = .none := by rw [wavPass_of_zero s hb]; rfl
      obtain rfl : k = 0 := by rw [← hk, hb]; rfl
      rw [wavLoop_finished hlast]
      simpa [sumTo] using wavDone_of_zero hb
    · have hpass := wavPass_of_ne_zero s hb
      have hgoes : (wavPass s).progress = .wav := by rw [hpass]; exact hp
      have hloop : wavLoop (n + 1) s = wavLoop n (wavPass s) := by simp [wavLoop, hgoes]
      obtain ⟨k, rfl⟩ : ∃ j, k = j + 1 := Nat.exists_eq_succ_of_ne_zero fun e => hb (BitVec.eq_of_toNat_eq (hk.trans e))
      have hcount : (wavPass s).b.toNat = k := by
        have e : (wavPass s).b = s.b - 1 := by rw [hpass]; rfl
        rw [e]
        bv_omega
      rw [hloop]
      exact wavDone_of_ne_zero hb (ih hgoes hcount (by omega))

/-- The end of WAV sets the flags alone: Z is 1, H, N, V and C are undefined (R415, U4). -/
theorem wavDone_endWav {s t : State} {p q : Nat} (h : WavDone s t p q) : let r := endWav t
    (r.y.toNat * 65536 + r.d.toNat = p % 2 ^ 32 ∧ r.x.toNat = q % 65536) ∧
    (∃ h n v c, FlagsHNZVC s r h n true v c) ∧ ReadsSame s r ∧
    r = { s with a := r.a, b := r.b, x := r.x, y := r.y, ccr := r.ccr, tmp1 := r.tmp1, tmp2 := r.tmp2, tmp3 := r.tmp3,
                 progress := .none, free := r.free } := by
  obtain ⟨hproducts, hweights, hframe⟩ := h
  have hend : endWav t = t.setCcr (putBit (freeHNZVC t) 2 true) := by
    rw [endWav, if_pos]
    rw [hframe]
  have hccr : t.ccr = s.ccr := by rw [hframe]
  have hmem : SameMemory s t := by
    rw [hframe]
    exact ⟨rfl, rfl, rfl, rfl, rfl, rfl⟩
  simp only [hend]
  refine ⟨⟨hproducts, hweights⟩, ⟨freeFlag t 5, freeFlag t 3, freeFlag t 1, freeFlag t 0, ?_⟩,
    (hmem.trans (sameMemory_setCcr t _)).readsSame, congrArg (State.setCcr · _) hframe⟩
  simp [freeHNZVC, FlagsHNZVC, CcrIs, State.flagS, State.flagX, State.flagH, State.flagI, State.flagN, State.flagZ,
    State.flagV, State.flagC, putHNZVC, putNZVC, putNZV, putNZ, putZ, hccr]

/-- Without a budget WAV may make the most passes that B can count. -/
theorem wavLimit_of_none {s : State} (h : s.budget = none) : wavLimit s = 256 := by rw [wavLimit, passLimit, h]; rfl

/-- The operands of a state that differs from `s` in no register but B and SP, nor in memory. -/
theorem wavS_wavF_eq {s t : State} (h : SameMemory s t) (he : t.earlier = s.earlier) (hf : t.free = s.free)
    (hx : t.x = s.x) (hy : t.y = s.y) : wavS t = wavS s ∧ wavF t = wavF s :=
  ⟨funext fun k => wavS_shift h he (j := 0) hf (by simpa using hx) k,
    funext fun k => wavF_shift h he (j := 0) hf (by simpa using hy) k⟩

/-- Where WAV starts: one iteration is counted before the first pass (R415). -/
def wavStart (s : State) : State := { s.setB (s.b - 1) with tmp1 := 0, tmp2 := 0, tmp3 := 0, progress := .wav }

/-- WAV makes B passes, or 256 for B = 0. -/
theorem wavStart_count (s : State) : ((wavStart s).b.toNat + 1 = if s.b = 0 then 256 else s.b.toNat) ∧
    (if s.b = 0 then 256 else s.b.toNat) ≤ 256 := by
  have hb : (wavStart s).b = s.b - 1 := rfl
  rw [hb]
  split
  · next h => exact ⟨by rw [h]; rfl, Nat.le_refl _⟩
  · next h => exact ⟨by bv_omega, Nat.le_of_lt s.b.isLt⟩

/-- Where wavr starts: with the sums that it pulls (R416). -/
def wavrStart (s : State) : State :=
  drop { s with tmp1 := read16 s .stack s.sp, tmp2 := read16 s .stack2 (s.sp + 2),
                tmp3 := read16 s .stack3 (s.sp + 4), progress := .wav } 6

theorem exec_wav_eq {s : State} (h : s.budget = none) : exec .wav s = .next (endWav (wavLoop 256 (wavStart s))) := by
  rw [← wavLimit_of_none (s := wavStart s) h]
  rfl

theorem exec_wavr_eq {s : State} (h : s.budget = none) : exec .wavr s = .next (endWav (wavLoop 256 (wavrStart s))) := by
  have e : max 1 (wavLimit (wavrStart s)) = 256 := by
    rw [wavLimit_of_none (s := wavrStart s) h]
    rfl
  rw [← e]
  rfl

/-- Settles O39: 256 passes are enough for B, and the sums of n bytes and of n products of bytes do not wrap. -/
theorem wavAndWavrSumProductsAndWeights : Obligations.WavAndWavrSumProductsAndWeights := by
  unfold Obligations.WavAndWavrSumProductsAndWeights
  refine ⟨fun s hs => ⟨_, exec_wav_eq hs, ?_⟩, fun s hs => ⟨_, exec_wavr_eq hs, ?_⟩⟩
  · obtain ⟨hS, hF⟩ := wavS_wavF_eq (s := s) (t := wavStart s) ⟨rfl, rfl, rfl, rfl, rfl, rfl⟩ rfl rfl rfl rfl
    obtain ⟨⟨hproducts, hweights⟩, hflags, hreads, hframe⟩ :=
      wavDone_endWav (wavDone_wavLoop (s := wavStart s) rfl rfl (BitVec.isLt _))
    obtain ⟨hcount, hmost⟩ := wavStart_count s
    have hsum : (wavSum (wavStart s)).toNat = 0 := toNat_append_eq_add (0 : Word) (0 : Word)
    have hweight : (wavStart s).tmp3.toNat = 0 := rfl
    have hp := sumTo_le (wavS_mul_wavF_le s) (if s.b = 0 then 256 else s.b.toNat)
    have hq := sumTo_le (wavF_le s) (if s.b = 0 then 256 else s.b.toNat)
    rw [hS, hF, hsum, hcount, Nat.zero_add, Nat.mod_eq_of_lt (by omega)] at hproducts
    rw [hF, hweight, hcount, Nat.zero_add, Nat.mod_eq_of_lt (by omega)] at hweights
    exact ⟨hproducts, hweights, hflags, hreads, hframe⟩
  · obtain ⟨hS, hF⟩ := wavS_wavF_eq (s := s) (t := wavrStart s) ⟨rfl, rfl, rfl, rfl, rfl, rfl⟩ rfl rfl rfl rfl
    obtain ⟨⟨hproducts, hweights⟩, hflags, hreads, hframe⟩ :=
      wavDone_endWav (wavDone_wavLoop (s := wavrStart s) rfl rfl (BitVec.isLt _))
    have hsum : (wavSum (wavrStart s)).toNat = _ := toNat_append_eq_add _ _
    rw [hS, hF, hsum] at hproducts
    rw [hF] at hweights
    have hsp : (endWav (wavLoop 256 (wavrStart s))).sp = s.sp + 6 := by rw [hframe]; rfl
    refine ⟨hproducts, hweights, hsp, hflags, hreads, ?_⟩
    rw [hsp]
    exact hframe

end Sys2Proof.Machine
end

section
/-! PROOF. REV and REVW as one loop (45_fuzzy_minmax_mac_tbl.md R412, R413): the two read elements of another width, and
what an element does is the same but for the weight. Then what every pass changes. -/

namespace Sys2Proof.Machine

/-! ## List elements -/

/-- What an element of the rule list stands for: the end, a separator, or an antecedent or consequent at an address. -/
inductive RuleElement where
  | stop
  | separator
  | operand (ea : Word)

/-- The element of REV that a byte of the list is (R412). -/
def byteElement (y : Word) (rx : Byte) : RuleElement :=
  if rx = 0xFF then .stop else if rx = 0xFE then .separator else .operand (y + zext16 rx)

/-- The element of REVW that a word of the list is (R413). -/
def wordElement (rx : Word) : RuleElement :=
  if rx = 0xFFFF then .stop else if rx = 0xFFFE then .separator else .operand rx

/-- The next element; `wide` says that the instruction is REVW. -/
def ruleElement (wide : Bool) (s : State) : RuleElement :=
  if wide then wordElement (read16 s .operand s.x) else byteElement s.y (read8 s .operand s.x)

/-- The bytes of an element, from X on. -/
def ruleBytes (wide : Bool) : List Word := if wide then [0, 1] else [0]

/-- How many they are. -/
def ruleStride (wide : Bool) : Nat := if wide then 2 else 1

/-- The instruction in progress. -/
def ruleProgress (wide : Bool) : Progress := if wide then .revw else .rev

/-- The element is taken from the list. -/
def ruleNext (wide : Bool) (s : State) : State :=
  nextDraw ((consume s (ruleBytes wide)).setX (s.x + BitVec.ofNat 16 (ruleStride wide)))

/-- The separator after the antecedents: REVW with C = 1 weights the truth value (R413). -/
def ruleWeigh (wide : Bool) (s t : State) : State :=
  if wide && s.flagC then (t.setA (weighted s.a (read8 s .third s.y))).setY (s.y + 1) else t

/-- What an element does. -/
def applyElement (wide : Bool) (s : State) : RuleElement → State
  | .stop => finished (ruleNext wide s)
  | .separator => toggleV (if s.flagV then (ruleNext wide s).setA 0xFF else ruleWeigh wide s (ruleNext wide s))
  | .operand ea => if s.flagV then consequent (ruleNext wide s) ea (read8 s .second ea)
      else antecedent (ruleNext wide s) (read8 s .second ea)

/-- One list element of REV or REVW. -/
def rulePass (wide : Bool) (s : State) : State := applyElement wide s (ruleElement wide s)

theorem revPass_eq : revPass = rulePass false := by
  funext s
  simp only [revPass, rulePass, ruleElement, Bool.false_eq_true, if_false, byteElement]
  split
  · rfl
  · split <;> rfl

theorem revwPass_eq : revwPass = rulePass true := by
  funext s
  simp only [revwPass, rulePass, ruleElement, if_true, wordElement]
  split
  · rfl
  · split <;> rfl

theorem ruleListOverlap_eq {wide : Bool} {s : State} (h : s.progress = ruleProgress wide) :
    ruleListOverlap s = overlapsOutputs s (ruleBytes wide) := by
  cases wide <;> · rw [ruleListOverlap, h]; rfl

/-! ## What an element changes -/

/-- What a pass leaves alone: every field but those listed, and of the flags all but V. -/
def RuleFrame (s t : State) : Prop :=
  t = { s with a := t.a, x := t.x, y := t.y, ccr := t.ccr, progress := t.progress, outputs := t.outputs,
               consumed := t.consumed, free := t.free, mem := t.mem, ppage := t.ppage, dpage := t.dpage,
               epage := t.epage, stale := t.stale, stores := t.stores } ∧
  ∀ k, k ≠ 1 → t.ccr.getLsbD k = s.ccr.getLsbD k

/-- A pass raises the output at an address: V is 1, the output was below A, gets A, and is remembered. -/
def RaisesOutput (s t : State) (ea : Word) : Prop :=
  s.flagV = true ∧ (read8 s .second ea).toNat < s.a.toNat ∧ SameMemory (write8 s ea s.a) t ∧
    t.outputs = slotAt s ea :: s.outputs

section
variable {wide : Bool} {s t u : State}

theorem RuleFrame.refl (s : State) : RuleFrame s s := ⟨rfl, fun _ _ => rfl⟩

theorem RuleFrame.trans (h : RuleFrame s t) (g : RuleFrame t u) : RuleFrame s u := by
  obtain ⟨hs, hk⟩ := h
  obtain ⟨gs, gk⟩ := g
  refine ⟨?_, fun k hne => (gk k hne).trans (hk k hne)⟩
  rw [hs] at gs
  exact gs

theorem RuleFrame.params (h : RuleFrame s t) : t.cfg = s.cfg ∧ t.windows = s.windows ∧ t.earlier = s.earlier := by
  rw [h.1]
  exact ⟨rfl, rfl, rfl⟩

/-- A change inside the frame that leaves the CCR as it is. -/
theorem RuleFrame.of_ccr_eq (h : t = { s with
      a := t.a, x := t.x, y := t.y, progress := t.progress, outputs := t.outputs, consumed := t.consumed,
      free := t.free, mem := t.mem, ppage := t.ppage, dpage := t.dpage, epage := t.epage, stale := t.stale,
      stores := t.stores }) : RuleFrame s t := by
  have hc : t.ccr = s.ccr := by rw [h]
  exact ⟨by rw [hc]; exact h, fun k _ => by rw [hc]⟩

theorem ruleFrame_toggleV (s : State) : RuleFrame s (toggleV s) :=
  ⟨rfl, fun _ h => putBit_getLsbD_of_ne _ _ (by decide) h⟩

theorem ruleFrame_antecedent (s : State) (m : Byte) : RuleFrame s (antecedent s m) := by
  unfold antecedent
  split <;> exact .of_ccr_eq rfl

theorem ruleFrame_consequent (s : State) (ea : Word) (m : Byte) : RuleFrame s (consequent s ea m) := by
  unfold consequent
  split
  · refine .of_ccr_eq ?_
    rw [onlyStores_store8 s ea s.a]
  · exact .refl s

theorem ruleFrame_ruleWeigh (s t : State) : RuleFrame t (ruleWeigh wide s t) := by
  unfold ruleWeigh
  split <;> exact .of_ccr_eq rfl

/-- Every element leaves the frame. -/
theorem ruleFrame_rulePass (s : State) : RuleFrame s (rulePass wide s) := by
  have hnext : RuleFrame s (ruleNext wide s) := .of_ccr_eq rfl
  rw [rulePass]
  cases ruleElement wide s with
  | stop => exact .of_ccr_eq rfl
  | separator =>
    refine hnext.trans (.trans ?_ (ruleFrame_toggleV _))
    split
    · exact .of_ccr_eq rfl
    · exact ruleFrame_ruleWeigh _ _
  | operand ea =>
    refine hnext.trans ?_
    simp only [applyElement]
    split
    · exact ruleFrame_consequent _ _ _
    · exact ruleFrame_antecedent _ _

/-! ## Counters, and the one output that an element may raise -/

@[simp] theorem toggleV_x (s : State) : (toggleV s).x = s.x := rfl
@[simp] theorem toggleV_y (s : State) : (toggleV s).y = s.y := rfl
@[simp] theorem toggleV_free (s : State) : (toggleV s).free = s.free := rfl
@[simp] theorem toggleV_consumed (s : State) : (toggleV s).consumed = s.consumed := rfl
@[simp] theorem toggleV_progress (s : State) : (toggleV s).progress = s.progress := rfl
@[simp] theorem toggleV_outputs (s : State) : (toggleV s).outputs = s.outputs := rfl

section
variable (s t : State) (ea : Word) (m : Byte)

@[simp] theorem antecedent_x : (antecedent s m).x = s.x := by unfold antecedent; split <;> rfl
@[simp] theorem antecedent_y : (antecedent s m).y = s.y := by unfold antecedent; split <;> rfl
@[simp] theorem antecedent_free : (antecedent s m).free = s.free := by unfold antecedent; split <;> rfl
@[simp] theorem antecedent_consumed : (antecedent s m).consumed = s.consumed := by unfold antecedent; split <;> rfl
@[simp] theorem antecedent_progress : (antecedent s m).progress = s.progress := by unfold antecedent; split <;> rfl
@[simp] theorem antecedent_outputs : (antecedent s m).outputs = s.outputs := by unfold antecedent; split <;> rfl

@[simp] theorem consequent_x : (consequent s ea m).x = s.x := by unfold consequent; split <;> simp
@[simp] theorem consequent_y : (consequent s ea m).y = s.y := by unfold consequent; split <;> simp
@[simp] theorem consequent_free : (consequent s ea m).free = s.free := by unfold consequent; split <;> simp
@[simp] theorem consequent_consumed : (consequent s ea m).consumed = s.consumed := by unfold consequent; split <;> simp
@[simp] theorem consequent_progress : (consequent s ea m).progress = s.progress := by unfold consequent; split <;> simp

@[simp] theorem ruleWeigh_x : (ruleWeigh wide s t).x = t.x := by unfold ruleWeigh; split <;> rfl
@[simp] theorem ruleWeigh_y : (ruleWeigh false s t).y = t.y := rfl
@[simp] theorem ruleWeigh_free : (ruleWeigh wide s t).free = t.free := by unfold ruleWeigh; split <;> rfl
@[simp] theorem ruleWeigh_consumed : (ruleWeigh wide s t).consumed = t.consumed := by unfold ruleWeigh; split <;> rfl
@[simp] theorem ruleWeigh_progress : (ruleWeigh wide s t).progress = t.progress := by unfold ruleWeigh; split <;> rfl
@[simp] theorem ruleWeigh_outputs : (ruleWeigh wide s t).outputs = t.outputs := by unfold ruleWeigh; split <;> rfl

@[simp] theorem ruleNext_x : (ruleNext wide s).x = s.x + BitVec.ofNat 16 (ruleStride wide) := rfl
@[simp] theorem ruleNext_y : (ruleNext wide s).y = s.y := rfl
@[simp] theorem ruleNext_free : (ruleNext wide s).free = s.free + 1 := rfl
@[simp] theorem ruleNext_progress : (ruleNext wide s).progress = s.progress := rfl
@[simp] theorem ruleNext_consumed : (ruleNext wide s).consumed =
    ((ruleBytes wide).map fun k => slotAt s (s.x + k)) ++ s.consumed := rfl
@[simp] theorem ruleNext_outputs : (ruleNext wide s).outputs = s.outputs := rfl

/-- X passes the element, and the pass draws its own free values. -/
theorem rulePass_counters : (rulePass wide s).x = s.x + BitVec.ofNat 16 (ruleStride wide) ∧
    (rulePass wide s).free = s.free + 1 := by
  rw [rulePass]
  cases ruleElement wide s with
  | stop => exact ⟨rfl, rfl⟩
  | separator =>
    simp only [applyElement, toggleV_x, toggleV_free]
    split <;> simp
  | operand ea =>
    simp only [applyElement]
    split <;> simp

/-- Its bytes are noted as read. -/
theorem rulePass_consumed : (rulePass wide s).consumed =
    ((ruleBytes wide).map fun k => slotAt s (s.x + k)) ++ s.consumed := by
  rw [rulePass]
  cases ruleElement wide s with
  | stop => rfl
  | separator =>
    simp only [applyElement, toggleV_consumed]
    split <;> simp
  | operand ea =>
    simp only [applyElement]
    split <;> simp

/-- REV keeps Y. -/
theorem rulePass_y : (rulePass false s).y = s.y := by
  rw [rulePass]
  cases ruleElement false s with
  | stop => rfl
  | separator =>
    simp only [applyElement, toggleV_y]
    split <;> simp
  | operand ea =>
    simp only [applyElement]
    split <;> simp

/-- The end of the list finishes the instruction. -/
theorem rulePass_progress_of_stop (h : ruleElement wide s = .stop) : (rulePass wide s).progress = .none := by
  rw [rulePass, h]
  rfl

/-- Nothing else does. -/
theorem rulePass_progress_of_ne_stop (h : ruleElement wide s ≠ .stop) : (rulePass wide s).progress = s.progress := by
  rw [rulePass]
  cases e : ruleElement wide s with
  | stop => exact absurd e h
  | separator =>
    simp only [applyElement, toggleV_progress]
    split <;> simp
  | operand ea =>
    simp only [applyElement]
    split <;> simp

theorem rulePass_progress : (rulePass wide s).progress = .none ∨ (rulePass wide s).progress = s.progress := by
  by_cases h : ruleElement wide s = .stop
  · exact .inl (rulePass_progress_of_stop s h)
  · exact .inr (rulePass_progress_of_ne_stop s h)

end

theorem sameMemory_antecedent (s : State) (m : Byte) : SameMemory s (antecedent s m) := by
  unfold antecedent
  split <;> exact ⟨rfl, rfl, rfl, rfl, rfl, rfl⟩

theorem sameMemory_ruleWeigh (s t : State) : SameMemory t (ruleWeigh wide s t) := by
  unfold ruleWeigh
  split <;> exact ⟨rfl, rfl, rfl, rfl, rfl, rfl⟩

theorem sameMemory_ruleNext (s : State) : SameMemory s (ruleNext wide s) := ⟨rfl, rfl, rfl, rfl, rfl, rfl⟩

theorem sameMemory_toggleV (s : State) : SameMemory s (toggleV s) := ⟨rfl, rfl, rfl, rfl, rfl, rfl⟩

/-- What a write does to memory depends on memory and the map alone. -/
theorem SameMemory.write8 (h : SameMemory s t) (a : Word) (v : Byte) :
    SameMemory (Machine.write8 s a v) (Machine.write8 t a v) := by
  have hlocate := h.locate a
  obtain ⟨hm, hc, hw, hp, hd, he⟩ := h
  obtain ⟨_, es⟩ := writeTarget_eq s (Machine.locate s a) v
  obtain ⟨_, et⟩ := writeTarget_eq t (Machine.locate s a) v
  rw [Machine.write8, Machine.write8, hlocate, es, et]
  simp only [SameMemory, hm, hc, hw, hp, hd, he, and_self]

/-- An output below A is raised. -/
theorem consequent_of_lt {ea : Word} {m : Byte} (h : m.toNat < s.a.toNat) : consequent s ea m =
    { store8 s ea s.a with outputs := slotAt s ea :: (store8 s ea s.a).outputs } :=
  if_pos (decide_eq_true h)

/-- Any other is left as it is. -/
theorem consequent_of_le {ea : Word} {m : Byte} (h : s.a.toNat ≤ m.toNat) : consequent s ea m = s :=
  if_neg (by rw [BitVec.ult, decide_eq_true_eq]; omega)

/-- All that a pass does to memory: nothing, or the output at its address is raised. -/
theorem rulePass_memory (wide : Bool) (s : State) :
    (SameMemory s (rulePass wide s) ∧ (rulePass wide s).outputs = s.outputs) ∨
    ∃ ea, ruleElement wide s = .operand ea ∧ RaisesOutput s (rulePass wide s) ea := by
  have hnext := sameMemory_ruleNext (wide := wide) s
  rw [rulePass]
  cases ruleElement wide s with
  | stop => exact .inl ⟨⟨rfl, rfl, rfl, rfl, rfl, rfl⟩, rfl⟩
  | separator =>
    refine .inl ⟨hnext.trans (.trans ?_ (sameMemory_toggleV _)), ?_⟩
    · split
      · exact sameMemory_setA _ _
      · exact sameMemory_ruleWeigh _ _
    · simp only [applyElement, toggleV_outputs]
      split <;> simp
  | operand ea =>
    simp only [applyElement]
    split
    · next hv =>
      by_cases hlt : (read8 s .second ea).toNat < s.a.toNat
      · rw [consequent_of_lt (s := ruleNext wide s) hlt]
        refine .inr ⟨ea, rfl, hv, hlt, (hnext.write8 ea s.a).trans ⟨rfl, rfl, rfl, rfl, rfl, rfl⟩, ?_⟩
        simp [hnext.slotAt]
      · rw [consequent_of_le (s := ruleNext wide s) (Nat.le_of_not_lt hlt)]
        exact .inl ⟨hnext, rfl⟩
    · exact .inl ⟨hnext.trans (sameMemory_antecedent _ _), antecedent_outputs _ _⟩

end

/-! ## Any number of passes -/

/-- What every pass keeps holds after the passes; `n` counts them. The instruction is in progress at the start. -/
theorem ruleLoop_induction {pass : State → State} {P : Nat → State → Prop}
    (h : ∀ n t, P n t → t.progress ≠ .none → ruleListOverlap t = false → P (n + 1) (pass t)) (N : Nat) {n : Nat}
    {t : State} (ht : P n t) (hp : t.progress ≠ .none) : ∃ m, P m (ruleLoop pass N t) := by
  induction N generalizing n t with
  | zero => exact ⟨n, ht⟩
  | succ N ih =>
    cases ho : ruleListOverlap t with
    | true =>
      simp only [ruleLoop, ho, if_true]
      exact ⟨n, ht⟩
    | false =>
      have hnext := h n t ht hp ho
      simp only [ruleLoop, ho, Bool.false_eq_true, if_false]
      split
      · exact ⟨n + 1, hnext⟩
      · next hgoes => exact ih hnext hgoes

/-! ## The end of a run, and the instruction -/

/-- The flags at the end: H, N and Z are undefined, for REV C too (U3). -/
def ruleFlags (wide : Bool) (s : State) : Byte :=
  if wide then putBit (putNZ s.ccr (freeFlag s 3) (freeFlag s 2)) 5 (freeFlag s 5)
  else putBit (putNZC s.ccr (freeFlag s 3) (freeFlag s 2) (freeFlag s 0)) 5 (freeFlag s 5)

/-- The end of a run: flags, and if it is not finished the PC goes back to the instruction (R414). -/
def endRule (wide : Bool) (s : State) : State :=
  { s with ccr := ruleFlags wide s, pc := if s.progress = .none then s.pc else s.pc - 2 }

/-- The evaluation as it is entered. -/
def ruleStart (wide : Bool) (s : State) : State := { enterRules s with progress := ruleProgress wide }

theorem endRev_eq : endRev = endRule false := by
  funext s
  by_cases h : s.progress = .none
  · have e : endRev s = _ := if_pos h
    rw [e, endRule, if_pos h]
    rfl
  · have e : endRev s = _ := if_neg h
    rw [e, endRule, if_neg h]
    rfl

theorem endRevw_eq : endRevw = endRule true := by
  funext s
  by_cases h : s.progress = .none
  · have e : endRevw s = _ := if_pos h
    rw [e, endRule, if_pos h]
    rfl
  · have e : endRevw s = _ := if_neg h
    rw [e, endRule, if_neg h]
    rfl

/-- An evaluation goes on from where it stands. -/
def runRule (wide : Bool) (s : State) : State := endRule wide (ruleLoop (rulePass wide) (passLimit s 65536) s)

theorem runRev_eq : runRev = runRule false := by
  funext s
  rw [runRev, runRule, endRev_eq, revPass_eq]

theorem runRevw_eq : runRevw = runRule true := by
  funext s
  rw [runRevw, runRule, endRevw_eq, revwPass_eq]

theorem exec_rev_eq (s : State) : exec .rev s = .next (runRule false (ruleStart false s)) := by
  rw [← runRev_eq]
  rfl

theorem exec_revw_eq (s : State) : exec .revw s = .next (runRule true (ruleStart true s)) := by
  rw [← runRevw_eq]
  rfl

/-- S, X, I and V are kept by the end of a run, for REVW C too. -/
theorem ruleFlags_getLsbD {wide : Bool} (s : State) {k : Nat} (h : k ∉ [5, 3, 2]) (h0 : wide = true ∨ k ≠ 0) :
    (ruleFlags wide s).getLsbD k = s.ccr.getLsbD k := by
  simp only [List.mem_cons, List.not_mem_nil, or_false, not_or] at h
  obtain ⟨h5, h3, h2⟩ := h
  cases wide with
  | true => simp [ruleFlags, putNZ, putZ, putBit_getLsbD, h5, h3, h2]
  | false =>
    have hk : k ≠ 0 := by simpa using h0
    simp [ruleFlags, putNZC, putNZ, putZ, putBit_getLsbD, h5, h3, h2, hk]

end Sys2Proof.Machine
end

section
/-! PROOF. REV and REVW, any number of passes from any state (45_fuzzy_minmax_mac_tbl.md R412 to R414): the registers that
the passes count, and the outputs that they raise. A pass reads its element as the list stood at the start: the loop
stops where an element is among the outputs written. -/

namespace Sys2Proof.Machine

/-! ## Elements as the list stood at the start -/

/-- The state in which pass `j` of an evaluation that starts at `s` would read its element, the list standing as in
`s`. -/
def atPass (wide : Bool) (s : State) (j : Nat) : State :=
  { s with free := s.free + j, x := s.x + BitVec.ofNat 16 (ruleStride wide * j) }

/-- That pass names the address `a`. -/
def RuleNames (wide : Bool) (s : State) (j : Nat) (a : Word) : Prop := ruleElement wide (atPass wide s j) = .operand a

/-- The element depends on the bytes at X, and for REV on Y. -/
theorem ruleElement_congr {wide : Bool} {s t : State} (hx : t.x = s.x) (hy : wide = false → t.y = s.y)
    (hread : ∀ k ∈ ruleBytes wide, read8 t .operand (s.x + k) = read8 s .operand (s.x + k)) :
    ruleElement wide t = ruleElement wide s := by
  cases wide with
  | true =>
    have h0 : read8 t .operand s.x = read8 s .operand s.x := by simpa using hread 0 (by simp [ruleBytes])
    have h1 := hread 1 (by simp [ruleBytes])
    simp only [ruleElement, if_true, read16, hx, h0, h1]
  | false =>
    have h0 : read8 t .operand s.x = read8 s .operand s.x := by simpa using hread 0 (by simp [ruleBytes])
    simp only [ruleElement, Bool.false_eq_true, if_false, hx, hy, h0]

/-! ## Outputs raised -/

/-- `n` passes from `s` to `t` have changed nothing in memory but the outputs that they remember, lowered none, and,
where no address that they name is a page register, written no output but at those addresses. -/
structure Raised (wide : Bool) (s t : State) (n : Nat) : Prop where
  cells : ∀ k, .cell k ∉ t.outputs → memGet t.mem k = memGet s.mem k
  ppage : .ppage ∉ t.outputs → t.ppage = s.ppage
  dpage : .dpage ∉ t.outputs → t.dpage = s.dpage
  epage : .epage ∉ t.outputs → t.epage = s.epage
  notLowered : ∀ k, (memGet s.mem k).toNat ≤ (memGet t.mem k).toNat
  named : (∀ j < n, ∀ a, RuleNames wide s j a → ¬ isPageRegister s a) →
    t.ppage = s.ppage ∧ t.dpage = s.dpage ∧ t.epage = s.epage ∧
    ∀ p ∈ t.outputs, p ∈ s.outputs ∨ ∃ j < n, ∃ a, RuleNames wide s j a ∧ slotAt s a = p

/-- All that `n` passes from `s` to `t` do. -/
structure RuleRun (wide : Bool) (s t : State) (n : Nat) : Prop where
  frame : RuleFrame s t
  free : t.free = s.free + n
  x : t.x = s.x + BitVec.ofNat 16 (ruleStride wide * n)
  y : wide = false → t.y = s.y
  progress : t.progress = .none ∨ t.progress = s.progress
  raised : s.earlier = none → Raised wide s t n

section
variable {wide : Bool} {s t u : State} {n : Nat}

theorem RuleRun.refl (s : State) : RuleRun wide s s 0 where
  frame := .refl s
  free := rfl
  x := by simp
  y := fun _ => rfl
  progress := .inr rfl
  raised := fun _ => ⟨fun _ _ => rfl, fun _ => rfl, fun _ => rfl, fun _ => rfl, fun _ => Nat.le_refl _,
    fun _ => ⟨rfl, rfl, rfl, fun _ hp => .inl hp⟩⟩

/-- While the page registers stand, a byte that is no output reads as at the start. -/
theorem byteAt_of_not_output (hf : RuleFrame s t) (hr : Raised wide s t n)
    (hpage : t.ppage = s.ppage ∧ t.dpage = s.dpage ∧ t.epage = s.epage) {a : Word} (ha : slotAt t a ∉ t.outputs) :
    byteAt t a = byteAt s a := by
  obtain ⟨hp, hd, he⟩ := hpage
  obtain ⟨hc, hw, -⟩ := hf.params
  have hmap : locate t a = locate s a := locate_congr hc hw hp hd he a
  rw [byteAt, byteAt, hmap]
  rw [slotAt, hmap] at ha
  cases h : locate s a with
  | cell k w => rw [h] at ha; exact congrArg some (hr.cells k ha)
  | ppage => exact congrArg some hp
  | dpage => exact congrArg some hd
  | epage => exact congrArg some he
  | device | nothing => rfl

/-- So the next element is that of the list at the start. -/
theorem ruleElement_of_no_overlap (h : RuleRun wide s t n) (he : s.earlier = none)
    (hpage : t.ppage = s.ppage ∧ t.dpage = s.dpage ∧ t.epage = s.epage) (ho : overlapsOutputs t (ruleBytes wide) = false) :
    ruleElement wide t = ruleElement wide (atPass wide s n) := by
  obtain ⟨-, -, hearly⟩ := h.frame.params
  refine ruleElement_congr h.x h.y fun k hk => ?_
  have hx : t.x = (atPass wide s n).x := h.x
  have hslot : slotAt t ((atPass wide s n).x + k) ∉ t.outputs := by
    intro hmem
    rw [← hx] at hmem
    rw [(overlapsOutputs_iff t _).2 ⟨_, hmem, .inl ⟨k, hk, rfl⟩⟩] at ho
    cases ho
  have hbyte (a : Word) : byteAt (atPass wide s n) a = byteAt s a := byteAt_congr rfl rfl rfl rfl rfl rfl a
  have hfree : (atPass wide s n).free = t.free := h.free.symm
  rw [read8_none (hearly.trans he), read8_none (s := atPass wide s n) he, hbyte, hfree,
    byteAt_of_not_output h.frame (h.raised he) hpage hslot]

/-- A byte of storage that an output raises is not lowered, and no other changes. -/
theorem memGet_le_of_raisesOutput (he : t.earlier = none) {ea : Word} (h : RaisesOutput t u ea) (k : Nat) :
    (memGet t.mem k).toNat ≤ (memGet u.mem k).toNat := by
  obtain ⟨-, hlt, ⟨hm, -⟩, -⟩ := h
  rw [hm]
  by_cases hk : locate t ea = .cell k true
  · have hread : read8 t .second ea = memGet t.mem k := by rw [read8_none he, byteAt, hk]; rfl
    rw [write8, hk, writeTarget_mem, memGet_memSet_same, ← hread]
    exact Nat.le_of_lt hlt
  · rw [write8, memGet_writeTarget_of_ne hk]

/-- An output that is written or named by `n` passes is by one more. -/
theorem named_succ {p : Slot} (h : p ∈ s.outputs ∨ ∃ j < n, ∃ a, RuleNames wide s j a ∧ slotAt s a = p) :
    p ∈ s.outputs ∨ ∃ j < n + 1, ∃ a, RuleNames wide s j a ∧ slotAt s a = p :=
  h.imp_right fun ⟨j, hj, ha⟩ => ⟨j, Nat.lt_succ_of_lt hj, ha⟩

/-- A pass that raises no output keeps what `Raised` says. -/
theorem Raised.of_sameMemory (h : Raised wide s t n) (hu : SameMemory t u) (hout : u.outputs = t.outputs) :
    Raised wide s u (n + 1) := by
  obtain ⟨hm, -, -, hp, hd, he⟩ := hu
  refine ⟨?_, ?_, ?_, ?_, ?_, fun hpages => ?_⟩
  · rw [hout, hm]; exact h.cells
  · rw [hout, hp]; exact h.ppage
  · rw [hout, hd]; exact h.dpage
  · rw [hout, he]; exact h.epage
  · rw [hm]; exact h.notLowered
  · obtain ⟨gp, gd, ge, gout⟩ := h.named fun j hj => hpages j (Nat.lt_succ_of_lt hj)
    rw [hout, hp, hd, he]
    exact ⟨gp, gd, ge, fun p hp => named_succ (gout p hp)⟩

/-- Nor does one that raises the output which it names. -/
theorem Raised.raise (h : Raised wide s t n) (hf : RuleFrame s t) (he : s.earlier = none) {ea : Word}
    (hraise : RaisesOutput t u ea)
    (hnames : t.ppage = s.ppage ∧ t.dpage = s.dpage ∧ t.epage = s.epage → RuleNames wide s n ea) :
    Raised wide s u (n + 1) := by
  obtain ⟨hc, hw, hearly⟩ := hf.params
  have hle := memGet_le_of_raisesOutput (hearly.trans he) hraise
  obtain ⟨-, -, ⟨hm, -, -, hp, hd, hpe⟩, hout⟩ := hraise
  have hmem (p : Slot) : p ∈ u.outputs ↔ p = slotAt t ea ∨ p ∈ t.outputs := by rw [hout, List.mem_cons]
  refine ⟨fun k hk => ?_, fun hk => ?_, fun hk => ?_, fun hk => ?_, fun k => Nat.le_trans (h.notLowered k) (hle k),
    fun hpages => ?_⟩
  · rw [hmem, not_or] at hk
    rw [hm, ← h.cells k hk.2]
    exact memGet_writeTarget_of_ne (fun e => hk.1 (slotAt_of_cell e).symm) _
  · rw [hmem, not_or] at hk
    rw [hp, ← h.ppage hk.2]
    exact writeTarget_ppage_of_ne (fun e => hk.1 (by rw [slotAt, e])) _
  · rw [hmem, not_or] at hk
    rw [hd, ← h.dpage hk.2]
    exact writeTarget_dpage_of_ne (fun e => hk.1 (by rw [slotAt, e])) _
  · rw [hmem, not_or] at hk
    rw [hpe, ← h.epage hk.2]
    exact writeTarget_epage_of_ne (fun e => hk.1 (by rw [slotAt, e])) _
  · obtain ⟨gp, gd, ge, gout⟩ := h.named fun j hj => hpages j (Nat.lt_succ_of_lt hj)
    have hname := hnames ⟨gp, gd, ge⟩
    have hmap : locate t ea = locate s ea := locate_congr hc hw gp gd ge ea
    have hnot : ¬ (locate t ea).isPage := hmap ▸ hpages n (Nat.lt_succ_self n) ea hname
    simp only [Target.isPage, not_or] at hnot
    obtain ⟨np, nd, ne⟩ := hnot
    refine ⟨?_, ?_, ?_, fun p hp => ?_⟩
    · rw [hp, ← gp]; exact writeTarget_ppage_of_ne np _
    · rw [hd, ← gd]; exact writeTarget_dpage_of_ne nd _
    · rw [hpe, ← ge]; exact writeTarget_epage_of_ne ne _
    · rcases (hmem p).1 hp with rfl | hp
      · exact .inr ⟨n, Nat.lt_succ_self n, ea, hname, by rw [slotAt, slotAt, hmap]⟩
      · exact named_succ (gout p hp)

/-- One more pass keeps what `Raised` says: its element is the one that the list holds at the start. -/
theorem Raised.pass (h : RuleRun wide s t n) (he : s.earlier = none)
    (ho : overlapsOutputs t (ruleBytes wide) = false) : Raised wide s (rulePass wide t) (n + 1) := by
  rcases rulePass_memory wide t with ⟨hsame, hout⟩ | ⟨ea, helem, hraise⟩
  · exact (h.raised he).of_sameMemory hsame hout
  · exact (h.raised he).raise h.frame he hraise fun hpage =>
      (ruleElement_of_no_overlap h he hpage ho).symm.trans helem

/-- One more pass. -/
theorem RuleRun.pass (h : RuleRun wide s t n) (hs : s.progress = ruleProgress wide) (hgoes : t.progress ≠ .none)
    (ho : ruleListOverlap t = false) : RuleRun wide s (rulePass wide t) (n + 1) := by
  have hp : t.progress = s.progress := h.progress.resolve_left hgoes
  obtain ⟨hx, hfree⟩ := rulePass_counters (wide := wide) t
  rw [ruleListOverlap_eq (hp.trans hs)] at ho
  refine ⟨h.frame.trans (ruleFrame_rulePass t), ?_, ?_, fun hw => ?_, ?_, fun he => .pass h he ho⟩
  · rw [hfree, h.free, Nat.add_assoc]
  · rw [hx, h.x, BitVec.add_assoc, ← BitVec.ofNat_add, ← Nat.mul_succ]
  · subst hw
    rw [rulePass_y, h.y rfl]
  · rw [← hp]
    exact rulePass_progress t

/-- Any number of passes. -/
theorem ruleRun_ruleLoop (hs : s.progress = ruleProgress wide) (N : Nat) :
    ∃ n, RuleRun wide s (ruleLoop (rulePass wide) N s) n := by
  have hne : s.progress ≠ .none := by rw [hs]; cases wide <;> simp [ruleProgress]
  exact ruleLoop_induction (P := fun n t => RuleRun wide s t n) (fun n t ht hgoes ho => ht.pass hs hgoes ho) N
    (RuleRun.refl s) hne

end

/-! ## The addresses that the statement names -/

theorem byteElement_eq_operand_iff (y : Word) (rx : Byte) (a : Word) :
    byteElement y rx = .operand a ↔ rx.toNat < 0xFE ∧ a = y + BitVec.ofNat 16 rx.toNat := by
  have hz : zext16 rx = BitVec.ofNat 16 rx.toNat := (BitVec.ofNat_toNat 16 rx).symm
  have hlt := rx.isLt
  unfold byteElement
  split
  · next h => simp [h]
  · split
    · next h => simp [h]
    · next h1 h2 =>
      have hrx : rx.toNat < 0xFE := by
        have e1 : rx.toNat ≠ 255 := fun e => h1 (BitVec.eq_of_toNat_eq e)
        have e2 : rx.toNat ≠ 254 := fun e => h2 (BitVec.eq_of_toNat_eq e)
        omega
      simp [hrx, hz, eq_comm]

theorem wordElement_eq_operand_iff (rx a : Word) :
    wordElement rx = .operand a ↔ rx.toNat < 0xFFFE ∧ a = rx := by
  have hlt := rx.isLt
  unfold wordElement
  split
  · next h => simp [h]
  · split
    · next h => simp [h]
    · next h1 h2 =>
      have hrx : rx.toNat < 0xFFFE := by
        have e1 : rx.toNat ≠ 65535 := fun e => h1 (BitVec.eq_of_toNat_eq e)
        have e2 : rx.toNat ≠ 65534 := fun e => h2 (BitVec.eq_of_toNat_eq e)
        omega
      simp [hrx, eq_comm]

/-! ## The instruction -/

section
variable {wide : Bool} {s t : State} {n : Nat}

/-- The entry changes the record and the progress alone. -/
theorem ruleStart_eq (wide : Bool) (s : State) : ruleStart wide s =
    { s with progress := ruleProgress wide, outputs := (enterRules s).outputs, consumed := (enterRules s).consumed,
             suspended := (enterRules s).suspended } :=
  congrArg (fun u : State => { u with progress := ruleProgress wide }) (enterRules_eq s)

theorem sameMemory_ruleStart (wide : Bool) (s : State) : SameMemory s (ruleStart wide s) := by
  rw [ruleStart_eq]
  exact ⟨rfl, rfl, rfl, rfl, rfl, rfl⟩

/-- The end of a run changes flags and PC alone. -/
theorem endRule_frame (h : RuleFrame (ruleStart wide s) t) : let r := endRule wide t
    r = { s with a := r.a, x := r.x, y := r.y, ccr := r.ccr, pc := r.pc, progress := r.progress, outputs := r.outputs,
                 consumed := r.consumed, suspended := (enterRules s).suspended, free := r.free, mem := r.mem,
                 ppage := r.ppage, dpage := r.dpage, epage := r.epage, stale := r.stale, stores := r.stores } := by
  have e := h.1
  rw [ruleStart_eq] at e
  exact congrArg (fun u : State => { u with ccr := (endRule wide t).ccr, pc := (endRule wide t).pc }) e

/-- S, X and I are kept through a run, and for REVW C. -/
theorem endRule_flags (h : RuleFrame (ruleStart wide s) t) : let r := endRule wide t
    FlagsHNZVC s r r.flagH r.flagN r.flagZ r.flagV r.flagC ∧ (wide = true → r.flagC = s.flagC) := by
  have hccr : (ruleStart wide s).ccr = s.ccr := by rw [ruleStart_eq]
  have bit (k : Nat) (hk : k ∉ [5, 3, 2]) (h1 : k ≠ 1) (h0 : wide = true ∨ k ≠ 0) :
      (endRule wide t).ccr.getLsbD k = s.ccr.getLsbD k := by
    rw [← hccr, ← h.2 k h1]
    exact ruleFlags_getLsbD t hk h0
  exact ⟨⟨bit 7 (by decide) (by decide) (.inr (by decide)), bit 6 (by decide) (by decide) (.inr (by decide)), rfl,
    bit 4 (by decide) (by decide) (.inr (by decide)), rfl, rfl, rfl, rfl⟩,
    fun hw => bit 0 (by decide) (by decide) (.inl hw)⟩

/-- The PC is the next instruction, or the instruction if it is not finished (R414). -/
theorem endRule_pc (h : RuleFrame (ruleStart wide s) t) : let r := endRule wide t
    r.pc = if r.progress = .none then s.pc else s.pc - 2 := by
  have hpc : t.pc = s.pc := by
    rw [h.1, ruleStart_eq]
  rw [← hpc]
  rfl

/-- What the statement says of the outputs. -/
theorem outputsRaised_of_raised (h : Raised wide (ruleStart wide s) t n) {named : Nat → Word → Prop}
    (hnamed : ∀ j a, RuleNames wide (ruleStart wide s) j a ↔ named j a) : OutputsRaised s (endRule wide t) n named := by
  have hsame := sameMemory_ruleStart wide s
  obtain ⟨hcells, hp, hd, he, hlow, hnames⟩ := h
  simp only [hnamed, hsame.isPageRegister, hsame.slotAt] at hnames
  obtain ⟨hm, -, -, gp, gd, ge⟩ := hsame
  rw [hm] at hcells hlow
  rw [gp] at hp hnames
  rw [gd] at hd hnames
  rw [ge] at he hnames
  exact ⟨hcells, hp, hd, he, hlow, hnames⟩

/-- REV or REVW, run to its end or to its interrupt point. -/
theorem exists_ruleRun (wide : Bool) (s : State) : ∃ n t, RuleRun wide (ruleStart wide s) t n ∧
    runRule wide (ruleStart wide s) = endRule wide t := by
  obtain ⟨n, h⟩ := ruleRun_ruleLoop (wide := wide) (s := ruleStart wide s) rfl (passLimit (ruleStart wide s) 65536)
  exact ⟨n, _, h, rfl⟩

/-- The entry leaves what the passes read. -/
theorem read8_atPass_ruleStart (wide : Bool) (s : State) (j : Nat) (d : Draw) (a : Word) :
    read8 (atPass wide (ruleStart wide s) j) d a = read8 { s with free := s.free + j } d a := by
  rw [ruleStart_eq]
  apply read8_congr <;> rfl

theorem ruleNames_rev_iff (s : State) (j : Nat) (a : Word) : RuleNames false (ruleStart false s) j a ↔
    (revByte s j).toNat < 0xFE ∧ a = s.y + BitVec.ofNat 16 (revByte s j).toNat := by
  have hx : (atPass false (ruleStart false s) j).x = s.x + BitVec.ofNat 16 j := by
    rw [ruleStart_eq]
    simp [atPass, ruleStride]
  have hy : (atPass false (ruleStart false s) j).y = s.y := by rw [ruleStart_eq]; rfl
  rw [RuleNames, ruleElement, if_neg (by decide), read8_atPass_ruleStart, hx, hy]
  exact byteElement_eq_operand_iff s.y (revByte s j) a

theorem ruleNames_revw_iff (s : State) (j : Nat) (a : Word) : RuleNames true (ruleStart true s) j a ↔
    (revwWord s j).toNat < 0xFFFE ∧ a = revwWord s j := by
  have hx : (atPass true (ruleStart true s) j).x = s.x + BitVec.ofNat 16 (2 * j) := by
    rw [ruleStart_eq]
    simp [atPass, ruleStride]
  rw [RuleNames, ruleElement, if_pos rfl, read16, read8_atPass_ruleStart, read8_atPass_ruleStart, hx]
  exact wordElement_eq_operand_iff (revwWord s j) a

end

/-- Settles O40: every run is some number of passes and an end, each pass with the frame and the outputs of `RuleRun`. -/
theorem ruleEvaluationChangesOnlyItsRegistersAndOutputs : Obligations.RuleEvaluationChangesOnlyItsRegistersAndOutputs := by
  unfold Obligations.RuleEvaluationChangesOnlyItsRegistersAndOutputs
  refine ⟨fun s => ?_, fun s => ?_⟩
  · obtain ⟨n, t, hrun, hend⟩ := exists_ruleRun false s
    obtain ⟨hflags, -⟩ := endRule_flags hrun.frame
    have hstart := ruleStart_eq false s
    have hx : t.x = s.x + BitVec.ofNat 16 n := by simpa [hstart, ruleStride] using hrun.x
    have hfree : t.free = s.free + n := by simpa [hstart] using hrun.free
    have hy : t.y = s.y := by simpa [hstart] using hrun.y rfl
    have hprogress : t.progress = .none ∨ t.progress = .rev := by simpa [hstart, ruleProgress] using hrun.progress
    have hframe : endRule false t = _ := endRule_frame hrun.frame
    refine ⟨_, (exec_rev_eq s).trans (congrArg _ hend), ⟨_, _, _, _, _, hflags⟩, endRule_pc hrun.frame, hprogress,
      ⟨n, hfree, hx, fun he => outputsRaised_of_raised (hrun.raised (by rw [hstart]; exact he)) (ruleNames_rev_iff s)⟩, ?_⟩
    rw [show (endRule false t).y = s.y from hy] at hframe
    exact hframe
  · obtain ⟨n, t, hrun, hend⟩ := exists_ruleRun true s
    obtain ⟨hflags, hc⟩ := endRule_flags hrun.frame
    have hstart := ruleStart_eq true s
    have hx : t.x = s.x + BitVec.ofNat 16 (2 * n) := by simpa [hstart, ruleStride] using hrun.x
    have hfree : t.free = s.free + n := by simpa [hstart] using hrun.free
    have hprogress : t.progress = .none ∨ t.progress = .revw := by simpa [hstart, ruleProgress] using hrun.progress
    exact ⟨_, (exec_revw_eq s).trans (congrArg _ hend), ⟨_, _, _, _, hc rfl ▸ hflags⟩, endRule_pc hrun.frame, hprogress,
      ⟨n, hfree, hx, fun he => outputsRaised_of_raised (hrun.raised (by rw [hstart]; exact he)) (ruleNames_revw_iff s)⟩,
      endRule_frame hrun.frame⟩

end Sys2Proof.Machine
end

section
/-! PROOF. REV and REVW where every address reaches RAM: what each kind of element does to A, the outputs and the list
(45_fuzzy_minmax_mac_tbl.md R412, R413), then one rule from its first antecedent to the end of the list. -/

namespace Sys2Proof.Machine

/-! ## RAM -/

section
variable {s t : State}

theorem AllRam.byteAt (h : AllRam s) (a : Word) : byteAt s a = some (ramByte s a) := by
  rw [Machine.byteAt, h.1 a]
  rfl

theorem AllRam.read8 (h : AllRam s) (d : Draw) (a : Word) : read8 s d a = ramByte s a := by
  rw [read8_none h.2, h.byteAt, Option.getD_some]

theorem AllRam.slotAt (h : AllRam s) (a : Word) : slotAt s a = .cell a.toNat := slotAt_of_cell (h.1 a)

theorem AllRam.of_sameMemory (h : AllRam s) (hm : SameMemory s t) (he : t.earlier = s.earlier) : AllRam t :=
  ⟨fun z => (hm.locate z).trans (h.1 z), he.trans h.2⟩

theorem ramByte_of_sameMemory (hm : SameMemory s t) (a : Word) : ramByte t a = ramByte s a := by
  rw [ramByte, hm.1, ramByte]

/-- A store changes the byte at its address. -/
theorem AllRam.ramByte_write8 (h : AllRam s) (a : Word) (v : Byte) (z : Word) :
    ramByte (write8 s a v) z = if z = a then v else ramByte s z := by
  rw [write8, h.1 a, ramByte, writeTarget_mem, memGet_memSet]
  exact ite_congr (propext BitVec.toNat_inj) (fun _ => rfl) fun _ => rfl

theorem AllRam.write8 (h : AllRam s) (a : Word) (v : Byte) : AllRam (write8 s a v) := by
  refine ⟨fun z => ?_, (write8_earlier s a v).trans h.2⟩
  rw [Machine.write8, h.1 a, locate_writeTarget (by simp [Target.isPage])]
  exact h.1 z

end

/-! ## One pass -/

section
variable {wide : Bool} {s : State}

/-- A pass leaves every address in RAM. -/
theorem AllRam.rulePass (h : AllRam s) (wide : Bool) : AllRam (rulePass wide s) := by
  obtain ⟨-, -, he⟩ := (ruleFrame_rulePass (wide := wide) s).params
  rcases rulePass_memory wide s with ⟨hsame, -⟩ | ⟨ea, -, -, -, hsame, -⟩
  · exact h.of_sameMemory hsame he
  · exact (h.write8 ea s.a).of_sameMemory hsame (he.trans (write8_earlier s ea s.a).symm)

/-- V and C as a separator leaves them. -/
theorem toggleV_flags (s : State) : (toggleV s).flagV = !s.flagV ∧ (toggleV s).flagC = s.flagC := by
  constructor <;> simp [toggleV, State.flagV, State.flagC]

/-- An antecedent: A is the smaller of A and the byte, and nothing in memory changes. -/
theorem rulePass_antecedent (h : AllRam s) {ea : Word} (he : ruleElement wide s = .operand ea) (hv : s.flagV = false) :
    let t := rulePass wide s
    t.a.toNat = min s.a.toNat (ramByte s ea).toNat ∧ t.y = s.y ∧ t.flagV = false ∧ SameMemory s t ∧
      t.outputs = s.outputs := by
  have e : rulePass wide s = antecedent (ruleNext wide s) (ramByte s ea) := by
    rw [rulePass, he, applyElement, hv, h.read8]
    rfl
  have ha : (antecedent (ruleNext wide s) (ramByte s ea)).a.toNat = min s.a.toNat (ramByte s ea).toNat := by
    have hn : (ruleNext wide s).a = s.a := rfl
    rw [antecedent, hn]
    split
    · next hlt =>
      rw [BitVec.ult, decide_eq_true_eq] at hlt
      exact (Nat.min_eq_right (Nat.le_of_lt hlt)).symm
    · next hge =>
      rw [BitVec.ult, decide_eq_true_eq, Nat.not_lt] at hge
      rw [hn, Nat.min_eq_left hge]
  have hflag : (antecedent (ruleNext wide s) (ramByte s ea)).flagV = s.flagV := by
    unfold antecedent
    split <;> rfl
  simp only [e]
  exact ⟨ha, antecedent_y _ _, hflag.trans hv, (sameMemory_ruleNext s).trans (sameMemory_antecedent _ _),
    antecedent_outputs _ _⟩

/-- The separator after the antecedents: V is 1, and REVW with C = 1 weights A by the byte at Y. -/
theorem rulePass_separator (h : AllRam s) (he : ruleElement wide s = .separator) (hv : s.flagV = false) :
    let t := rulePass wide s
    t.a = (if wide && s.flagC then weighted s.a (ramByte s s.y) else s.a) ∧
      t.y = (if wide && s.flagC then s.y + 1 else s.y) ∧ t.flagV = true ∧ SameMemory s t ∧ t.outputs = s.outputs := by
  have e : rulePass wide s = toggleV (ruleWeigh wide s (ruleNext wide s)) := by
    rw [rulePass, he, applyElement, hv]
    rfl
  have hflag : (ruleWeigh wide s (ruleNext wide s)).flagV = s.flagV := by
    unfold ruleWeigh
    split <;> rfl
  have hmem := (sameMemory_ruleNext (wide := wide) s).trans (sameMemory_ruleWeigh (wide := wide) s (ruleNext wide s))
  simp only [e]
  refine ⟨?_, ?_, ?_, hmem.trans (sameMemory_toggleV _), by simp⟩
  · have ha : (toggleV (ruleWeigh wide s (ruleNext wide s))).a = (ruleWeigh wide s (ruleNext wide s)).a := rfl
    rw [ha, ruleWeigh, h.read8]
    split <;> rfl
  · rw [toggleV_y, ruleWeigh]
    split <;> rfl
  · rw [(toggleV_flags _).1, hflag, hv]
    rfl

theorem consequent_a (s : State) (ea : Word) (m : Byte) : (consequent s ea m).a = s.a := by
  unfold consequent
  split <;> simp

theorem consequent_ccr (s : State) (ea : Word) (m : Byte) : (consequent s ea m).ccr = s.ccr := by
  unfold consequent
  split <;> simp

/-- A consequent raises the byte at its address to A if that is below, and remembers the address. -/
theorem AllRam.ramByte_consequent (h : AllRam s) (ea : Word) :
    (∀ q ∈ (consequent s ea (ramByte s ea)).outputs, q = .cell ea.toNat ∨ q ∈ s.outputs) ∧
    ∀ z, (ramByte (consequent s ea (ramByte s ea)) z).toNat =
      if z = ea then max (ramByte s z).toNat s.a.toNat else (ramByte s z).toNat := by
  by_cases hlt : (ramByte s ea).toNat < s.a.toNat
  · rw [consequent_of_lt hlt]
    refine ⟨by simp [h.slotAt], fun z => ?_⟩
    have hz : ramByte (Machine.write8 s ea s.a) z = _ := h.ramByte_write8 ea s.a z
    refine (congrArg BitVec.toNat hz).trans ?_
    split
    · next hea => rw [hea, Nat.max_eq_right (Nat.le_of_lt hlt)]
    · rfl
  · rw [consequent_of_le (Nat.le_of_not_lt hlt)]
    refine ⟨fun q hq => .inr hq, fun z => ?_⟩
    split
    · next hea => rw [hea, Nat.max_eq_left (Nat.le_of_not_lt hlt)]
    · rfl

/-- The pass of a consequent. -/
theorem rulePass_consequent (h : AllRam s) {ea : Word} (he : ruleElement wide s = .operand ea) (hv : s.flagV = true) :
    let t := rulePass wide s
    t.a = s.a ∧ t.y = s.y ∧ t.flagV = true ∧ (∀ q ∈ t.outputs, q = .cell ea.toNat ∨ q ∈ s.outputs) ∧
      ∀ z, (ramByte t z).toNat = if z = ea then max (ramByte s z).toNat s.a.toNat else (ramByte s z).toNat := by
  have e : rulePass wide s = consequent (ruleNext wide s) ea (ramByte (ruleNext wide s) ea) := by
    rw [rulePass, he, applyElement, hv, h.read8]
    rfl
  have hram : AllRam (ruleNext wide s) := h.of_sameMemory (sameMemory_ruleNext s) rfl
  have hv' : (ruleNext wide s).flagV = true := hv
  obtain ⟨hout, hbyte⟩ := hram.ramByte_consequent ea
  simp only [e]
  refine ⟨consequent_a _ _ _, consequent_y _ _ _, ?_, hout, hbyte⟩
  rw [State.flagV, consequent_ccr]
  exact hv'

/-- The end of the list finishes the instruction and changes neither A, Y, V nor memory. -/
theorem rulePass_stop (he : ruleElement wide s = .stop) : let t := rulePass wide s
    t.a = s.a ∧ t.y = s.y ∧ t.flagV = s.flagV ∧ SameMemory s t := by
  have e : rulePass wide s = finished (ruleNext wide s) := by rw [rulePass, he]; rfl
  simp only [e]
  exact ⟨rfl, rfl, rfl, rfl, rfl, rfl, rfl, rfl, rfl⟩

end

/-! ## The list -/

/-- At the entry `s`, the list at X holds the elements `es`, and no byte of it is at one of the addresses `C`. -/
structure RuleList (wide : Bool) (s : State) (C : List Word) (es : List RuleElement) : Prop where
  ram : AllRam s
  entered : s.progress = ruleProgress wide
  listed : ∀ i (h : i < es.length), ruleElement wide (atPass wide s i) = es[i]
  disjoint : ∀ k < ruleStride wide * es.length, ∀ c ∈ C, s.x + BitVec.ofNat 16 k ≠ c

/-- `t` is `s` after `i` elements, not finished, with no outputs but at the addresses `C` written. -/
structure RuleAt (wide : Bool) (s : State) (C : List Word) (t : State) (i : Nat) : Prop where
  ram : AllRam t
  run : RuleRun wide s t i
  goes : t.progress = ruleProgress wide
  outputs : ∀ q ∈ t.outputs, ∃ c ∈ C, q = .cell c.toNat
  consumed : ∀ q ∈ t.consumed, ∃ k < ruleStride wide * i, q = .cell (s.x + BitVec.ofNat 16 k).toNat
  kept : ∀ z, z ∉ C → ramByte t z = ramByte s z

theorem exists_of_mem_ruleBytes {wide : Bool} {k : Word} (h : k ∈ ruleBytes wide) :
    ∃ j < ruleStride wide, k = BitVec.ofNat 16 j := by
  cases wide with
  | true =>
    have hk : k = 0 ∨ k = 1 := by simpa [ruleBytes] using h
    rcases hk with rfl | rfl
    · exact ⟨0, by decide, rfl⟩
    · exact ⟨1, by decide, rfl⟩
  | false =>
    have hk : k = 0 := by simpa [ruleBytes] using h
    exact ⟨0, by decide, hk⟩

section
variable {wide : Bool} {s t : State} {C : List Word} {es : List RuleElement} {i : Nat}

/-- A byte of the next element is a byte of the list. -/
theorem RuleAt.address (h : RuleAt wide s C t i) {k : Word} (hk : k ∈ ruleBytes wide) :
    ∃ j < ruleStride wide * (i + 1), ruleStride wide * i ≤ j ∧ t.x + k = s.x + BitVec.ofNat 16 j := by
  obtain ⟨j, hj, rfl⟩ := exists_of_mem_ruleBytes hk
  refine ⟨ruleStride wide * i + j, by rw [Nat.mul_succ]; omega, Nat.le_add_right _ _, ?_⟩
  rw [h.run.x, BitVec.add_assoc, ← BitVec.ofNat_add]

/-- The evaluation goes on: no byte of the list is an output. -/
theorem RuleAt.no_overlap (h : RuleAt wide s C t i) (hl : RuleList wide s C es) (hi : i < es.length) :
    ruleListOverlap t = false := by
  have inside {j : Nat} (hj : j < ruleStride wide * (i + 1)) : j < ruleStride wide * es.length :=
    Nat.lt_of_lt_of_le hj (Nat.mul_le_mul_left _ hi)
  rw [ruleListOverlap_eq h.goes, Bool.eq_false_iff, ne_eq, overlapsOutputs_iff]
  rintro ⟨q, hq, ⟨k, hk, rfl⟩ | hc⟩
  · obtain ⟨c, hc, e⟩ := h.outputs _ hq
    obtain ⟨j, hj, -, hx⟩ := h.address hk
    rw [h.ram.slotAt, Slot.cell.injEq, BitVec.toNat_inj, hx] at e
    exact hl.disjoint j (inside hj) c hc e
  · obtain ⟨c, hcC, rfl⟩ := h.outputs q hq
    obtain ⟨j, hj, e⟩ := h.consumed _ hc
    rw [Slot.cell.injEq, BitVec.toNat_inj] at e
    exact hl.disjoint j (inside (by rw [Nat.mul_succ]; omega)) c hcC e.symm

/-- Where every address is RAM no output is a page register. -/
theorem RuleAt.pages (h : RuleAt wide s C t i) (hl : RuleList wide s C es) :
    t.ppage = s.ppage ∧ t.dpage = s.dpage ∧ t.epage = s.epage := by
  have hr := h.run.raised hl.ram.2
  have hnot {q : Slot} (hq : ∀ k, q ≠ .cell k) : q ∉ t.outputs := fun hmem => by
    obtain ⟨c, -, e⟩ := h.outputs q hmem
    exact hq _ e
  exact ⟨hr.ppage (hnot (by simp)), hr.dpage (hnot (by simp)), hr.epage (hnot (by simp))⟩

/-- The next element is the one that the list holds at the start. -/
theorem RuleAt.next (h : RuleAt wide s C t i) (hl : RuleList wide s C es) {e : RuleElement} {rest : List RuleElement}
    (hd : es.drop i = e :: rest) :
    ruleElement wide t = e ∧ es.drop (i + 1) = rest ∧ ruleListOverlap t = false := by
  have hi : i < es.length := by
    by_contra hge
    rw [List.drop_eq_nil_of_le (Nat.le_of_not_lt hge)] at hd
    cases hd
  rw [List.drop_eq_getElem_cons hi, List.cons.injEq] at hd
  have ho := h.no_overlap hl hi
  refine ⟨?_, hd.2, ho⟩
  rw [← hd.1, ← hl.listed i hi]
  exact ruleElement_of_no_overlap h.run hl.ram.2 (h.pages hl) (by rw [← ruleListOverlap_eq h.goes]; exact ho)

/-- A pass that does not end the list, and writes at `C` alone. -/
theorem RuleAt.pass (h : RuleAt wide s C t i) (hl : RuleList wide s C es) {e : RuleElement} {rest : List RuleElement}
    (hd : es.drop i = e :: rest) (hne : e ≠ .stop) (hC : ∀ ea, e = .operand ea → t.flagV = true → ea ∈ C) :
    RuleAt wide s C (rulePass wide t) (i + 1) := by
  obtain ⟨he, -, ho⟩ := h.next hl hd
  have hgoes : t.progress ≠ .none := by rw [h.goes]; cases wide <;> simp [ruleProgress]
  have hbefore {q : Slot} (hq : q ∈ t.consumed) :
      ∃ k < ruleStride wide * (i + 1), q = .cell (s.x + BitVec.ofNat 16 k).toNat := by
    obtain ⟨k, hk, e⟩ := h.consumed q hq
    exact ⟨k, by rw [Nat.mul_succ]; omega, e⟩
  refine ⟨h.ram.rulePass wide, h.run.pass hl.entered hgoes ho,
    (rulePass_progress_of_ne_stop t (by rw [he]; exact hne)).trans h.goes, ?_, ?_, ?_⟩
  · rcases rulePass_memory wide t with ⟨-, hout⟩ | ⟨ea, hea, hv, -, -, hout⟩
    · rw [hout]; exact h.outputs
    · rw [hout, List.forall_mem_cons]
      exact ⟨⟨ea, hC ea (he.symm.trans hea) hv, h.ram.slotAt ea⟩, h.outputs⟩
  · intro q hq
    rw [rulePass_consumed, List.mem_append, List.mem_map] at hq
    rcases hq with ⟨k, hk, rfl⟩ | hq
    · obtain ⟨j, hj, -, hx⟩ := h.address hk
      exact ⟨j, hj, by rw [h.ram.slotAt, hx]⟩
    · exact hbefore hq
  · intro z hz
    rw [← h.kept z hz]
    rcases rulePass_memory wide t with ⟨hsame, -⟩ | ⟨ea, hea, hv, -, hsame, -⟩
    · exact ramByte_of_sameMemory hsame z
    · rw [ramByte_of_sameMemory hsame, h.ram.ramByte_write8, if_neg]
      rintro rfl
      exact hz (hC z (he.symm.trans hea) hv)

end

/-! ## One rule -/

/-- `n` passes that do not finish the instruction lead from `t` to `u`. -/
def PassesTo (wide : Bool) (n : Nat) (t u : State) : Prop :=
  ∀ m, ruleLoop (rulePass wide) (n + m) t = ruleLoop (rulePass wide) m u

section
variable {wide : Bool} {s t u v : State} {C : List Word} {es : List RuleElement} {i : Nat}

theorem PassesTo.trans {m n : Nat} (h : PassesTo wide m t u) (g : PassesTo wide n u v) : PassesTo wide (m + n) t v := by
  intro k
  rw [Nat.add_assoc, h, g]

/-- A pass that does not end the list is one of the loop's. -/
theorem RuleAt.passesTo (h : RuleAt wide s C t i) (hl : RuleList wide s C es) {e : RuleElement} {rest : List RuleElement}
    (hd : es.drop i = e :: rest) (hne : e ≠ .stop) : PassesTo wide 1 t (rulePass wide t) := by
  obtain ⟨he, -, ho⟩ := h.next hl hd
  have hgoes : (rulePass wide t).progress ≠ .none := by
    rw [rulePass_progress_of_ne_stop t (by rw [he]; exact hne), h.goes]
    cases wide <;> simp [ruleProgress]
  intro m
  rw [Nat.add_comm, ruleLoop, ho, if_neg (by decide), if_neg hgoes]

/-- The antecedents: A is the least of A and their bytes. -/
theorem RuleAt.antecedents (hl : RuleList wide s C es) (as : List Word) {t : State} {i : Nat} {rest : List RuleElement}
    (h : RuleAt wide s C t i) (hd : es.drop i = as.map .operand ++ rest) (hv : t.flagV = false)
    (hm : ∀ z, ramByte t z = ramByte s z) :
    ∃ u, RuleAt wide s C u (i + as.length) ∧ es.drop (i + as.length) = rest ∧ PassesTo wide as.length t u ∧
      u.a.toNat = min t.a.toNat (leastAt s as) ∧ u.y = t.y ∧ u.flagV = false ∧ ∀ z, ramByte u z = ramByte s z := by
  induction as generalizing t i with
  | nil => exact ⟨t, h, hd, fun m => by simp, by have := t.a.isLt; simp only [leastAt]; omega, rfl, hv, hm⟩
  | cons a as ih =>
    obtain ⟨he, hd', -⟩ := h.next hl hd
    obtain ⟨ha, hy, hv', hsame, -⟩ := rulePass_antecedent h.ram he hv
    have hstep := h.pass hl hd (by simp) fun ea _ g => by rw [hv] at g; cases g
    obtain ⟨u, hu, hdu, hto, hau, hyu, hvu, hmu⟩ := ih hstep hd' hv' fun z =>
      (ramByte_of_sameMemory hsame z).trans (hm z)
    have hlen : i + (a :: as).length = i + 1 + as.length := by rw [List.length_cons]; omega
    rw [hlen, List.length_cons, Nat.add_comm as.length 1]
    refine ⟨u, hu, hdu, (h.passesTo hl hd (by simp)).trans hto, ?_, hyu.trans hy, hvu, hmu⟩
    rw [hau, ha, hm, leastAt, Nat.min_assoc]

/-- The consequents: each byte is the larger of itself and A. -/
theorem RuleAt.consequents (hl : RuleList wide s C es) (cs : List Word) {t : State} {i : Nat} {rest : List RuleElement}
    (h : RuleAt wide s C t i) (hd : es.drop i = cs.map .operand ++ rest) (hv : t.flagV = true) (hC : ∀ c ∈ cs, c ∈ C) :
    ∃ u, RuleAt wide s C u (i + cs.length) ∧ es.drop (i + cs.length) = rest ∧ PassesTo wide cs.length t u ∧
      u.a = t.a ∧ u.y = t.y ∧ u.flagV = true ∧
      ∀ z, (ramByte u z).toNat = if z ∈ cs then max (ramByte t z).toNat t.a.toNat else (ramByte t z).toNat := by
  induction cs generalizing t i with
  | nil => exact ⟨t, h, hd, fun m => by simp, rfl, rfl, hv, fun z => by simp⟩
  | cons c cs ih =>
    rw [List.forall_mem_cons] at hC
    obtain ⟨hc, hC⟩ := hC
    obtain ⟨he, hd', -⟩ := h.next hl hd
    obtain ⟨ha, hy, hv', -, hbyte⟩ := rulePass_consequent h.ram he hv
    have hstep := h.pass hl hd (by simp) fun ea e _ => by cases e; exact hc
    obtain ⟨u, hu, hdu, hto, hau, hyu, hvu, hmu⟩ := ih hstep hd' hv' hC
    have hlen : i + (c :: cs).length = i + 1 + cs.length := by rw [List.length_cons]; omega
    rw [hlen, List.length_cons, Nat.add_comm cs.length 1]
    refine ⟨u, hu, hdu, (h.passesTo hl hd (by simp)).trans hto, hau.trans ha, hyu.trans hy, hvu, fun z => ?_⟩
    rw [hmu, hbyte, ha]
    by_cases hz : z = c
    · simp [hz]
    · simp [hz]

theorem leastAt_congr {s t : State} (hm : t.mem = s.mem) (as : List Word) : leastAt t as = leastAt s as := by
  induction as with
  | nil => rfl
  | cons a as ih => rw [leastAt, leastAt, ih, ramByte, ramByte, hm]

theorem leastAt_le (s : State) (as : List Word) : leastAt s as ≤ 255 := by
  induction as with
  | nil => exact Nat.le_refl _
  | cons a as ih => exact Nat.le_trans (Nat.min_le_right _ _) ih

/-- The weighted truth value as a number (R413). -/
theorem toNat_weighted (a w : Byte) : (weighted a w).toNat = a.toNat * (w.toNat + 1) / 256 := by
  have ha := a.isLt
  have hw := w.isLt
  have hle : a.toNat * (w.toNat + 1) ≤ 255 * 256 := Nat.mul_le_mul (by omega) (by omega)
  have hsum : (zext16 w + 1).toNat = w.toNat + 1 := by
    rw [BitVec.toNat_add, toNat_zext16]
    exact Nat.mod_eq_of_lt (by simp; omega)
  rw [weighted, toNat_hiByte, BitVec.toNat_mul, toNat_zext16, hsum, Nat.mod_eq_of_lt (by omega)]

/-- The elements of one rule. -/
def oneRule (as cs : List Word) : List RuleElement :=
  as.map .operand ++ .separator :: (cs.map .operand ++ [.stop])

/-- The truth value of a rule that begins at `s`. -/
def ruleTruth (wide : Bool) (s : State) (as : List Word) : Nat :=
  if wide && s.flagC then leastAt s as * ((ramByte s s.y).toNat + 1) / 256 else leastAt s as

theorem length_oneRule (as cs : List Word) : (oneRule as cs).length = as.length + cs.length + 2 := by
  simp [oneRule]
  omega

/-- One rule, evaluated in as many passes as it has elements, or more where the loop may make them. -/
theorem RuleList.oneRule_evaluated {as cs : List Word} (hl : RuleList wide s cs (oneRule as cs)) (ha : s.a = 0xFF)
    (hv : s.flagV = false) (hout : s.outputs = []) (hcons : s.consumed = []) (m : Nat) :
    let t := ruleLoop (rulePass wide) (as.length + cs.length + 2 + m) s
    t.a.toNat = ruleTruth wide s as ∧ t.x = s.x + BitVec.ofNat 16 (ruleStride wide * (as.length + cs.length + 2)) ∧
      t.y = (if wide && s.flagC then s.y + 1 else s.y) ∧ RuleFrame s t ∧ t.progress = .none ∧ t.flagV = true ∧
      ∀ z, (ramByte t z).toNat =
        if z ∈ cs then max (ramByte s z).toNat (ruleTruth wide s as) else (ramByte s z).toNat := by
  have h0 : RuleAt wide s cs s 0 :=
    ⟨hl.ram, .refl s, hl.entered, by simp [hout], by simp [hcons], fun _ _ => rfl⟩
  obtain ⟨t1, h1, hd1, hto1, ha1, hy1, hv1, hm1⟩ := h0.antecedents hl as List.drop_zero hv fun _ => rfl
  obtain ⟨he, hd2, -⟩ := h1.next hl hd1
  have h2 := h1.pass hl hd1 (by simp) fun ea e _ => by cases e
  have hto2 := h1.passesTo hl hd1 (by simp)
  obtain ⟨ha2, hy2, hv2, hsame2, -⟩ := rulePass_separator h1.ram he hv1
  obtain ⟨t3, h3, hd3, hto3, ha3, hy3, hv3, hm3⟩ := h2.consequents hl cs hd2 hv2 fun _ hc => hc
  obtain ⟨he4, -, ho4⟩ := h3.next hl hd3
  obtain ⟨ha4, hy4, hv4, hsame4⟩ := rulePass_stop (wide := wide) he4
  have hlast := ruleLoop_finished ho4 (rulePass_progress_of_stop t3 he4)
  have hrun : ruleLoop (rulePass wide) (as.length + cs.length + 2 + m) s = rulePass wide t3 := by
    have hn : as.length + cs.length + 2 + m = as.length + 1 + cs.length + (m + 1) := by omega
    rw [hn, (hto1.trans hto2).trans hto3, hlast]
  have hflag : t1.flagC = s.flagC := h1.run.frame.2 0 (by decide)
  have hleast : t1.a.toNat = leastAt s as := by
    rw [ha1, ha]
    exact Nat.min_eq_right (leastAt_le s as)
  have htruth : t3.a.toNat = ruleTruth wide s as := by
    rw [ha3, ha2, hflag, ruleTruth, hy1, hm1]
    split
    · rw [toNat_weighted, hleast]
    · exact hleast
  simp only [hrun]
  refine ⟨by rw [ha4, htruth], ?_, ?_, h3.run.frame.trans (ruleFrame_rulePass t3),
    rulePass_progress_of_stop t3 he4, hv4.trans hv3, fun z => ?_⟩
  · obtain ⟨hx, -⟩ := rulePass_counters (wide := wide) t3
    have hn : ruleStride wide * (as.length + cs.length + 2) =
        ruleStride wide * (0 + as.length + 1 + cs.length) + ruleStride wide := by
      rw [← Nat.mul_succ]
      congr 1
      omega
    rw [hx, h3.run.x, BitVec.add_assoc, ← BitVec.ofNat_add, hn]
  · rw [hy4, hy3, hy2, hflag, hy1]
  · rw [ramByte_of_sameMemory hsame4, hm3, ← ha3, htruth, ramByte_of_sameMemory hsame2, hm1]

end

/-! ## The list in memory -/

section
variable {s : State}

/-- The bytes at X are the elements of REV. -/
theorem ruleElement_of_bytes (h : AllRam s) {bs : List Byte} (hb : RamHolds s s.x bs) {i : Nat} (hi : i < bs.length) :
    ruleElement false (atPass false s i) = byteElement s.y bs[i] := by
  have hram : AllRam (atPass false s i) := h
  have hx : (atPass false s i).x = s.x + BitVec.ofNat 16 i := by simp [atPass, ruleStride]
  rw [ruleElement, if_neg (by decide), hram.read8, hx, ← hb i hi]
  rfl

theorem length_bytesOfWords (ws : List Word) : (bytesOfWords ws).length = 2 * ws.length := by
  induction ws with
  | nil => rfl
  | cons w ws ih => rw [bytesOfWords, List.length_cons, List.length_cons, List.length_cons, ih]; omega

/-- The bytes of the words, two by two. -/
theorem getElem?_bytesOfWords (ws : List Word) (i : Nat) :
    (bytesOfWords ws)[2 * i]? = ws[i]?.map hiByte ∧ (bytesOfWords ws)[2 * i + 1]? = ws[i]?.map loByte := by
  induction ws generalizing i with
  | nil => simp [bytesOfWords]
  | cons w ws ih =>
    rw [bytesOfWords_cons]
    cases i with
    | zero => simp
    | succ i => simpa [Nat.mul_succ] using ih i

/-- The words at X are the elements of REVW. -/
theorem ruleElement_of_words (h : AllRam s) {ws : List Word} (hb : RamHolds s s.x (bytesOfWords ws)) {i : Nat}
    (hi : i < ws.length) : ruleElement true (atPass true s i) = wordElement ws[i] := by
  have hram : AllRam (atPass true s i) := h
  have hx : (atPass true s i).x = s.x + BitVec.ofNat 16 (2 * i) := by simp [atPass, ruleStride]
  have hx1 : (atPass true s i).x + 1 = s.x + BitVec.ofNat 16 (2 * i + 1) := by
    rw [hx, BitVec.add_assoc, BitVec.ofNat_add]
    rfl
  obtain ⟨hhi, hlo⟩ := getElem?_bytesOfWords ws i
  have hlen := length_bytesOfWords ws
  have hbyte (k : Nat) (v : Byte) (hk : k < 2 * ws.length) (hv : (bytesOfWords ws)[k]? = some v) :
      ramByte s (s.x + BitVec.ofNat 16 k) = v := by
    rw [hb k (hlen ▸ hk)]
    exact (List.getElem?_eq_some_iff.1 hv).2
  have e0 := hbyte (2 * i) (hiByte ws[i]) (by omega) (by simp [hhi, hi])
  have e1 := hbyte (2 * i + 1) (loByte ws[i]) (by omega) (by simp [hlo, hi])
  have hread : read16 (atPass true s i) .operand (atPass true s i).x = ws[i] := by
    rw [read16, hram.read8, hram.read8, hx1, hx, ← joinBytes_hiByte_loByte ws[i], ← e0, ← e1]
    rfl
  rw [ruleElement, if_pos rfl, hread]

/-- No address below the separator's code is taken for one. -/
theorem map_wordElement (as : List Word) (h : ∀ k ∈ as, k.toNat < 0xFFFE) :
    as.map wordElement = as.map .operand :=
  List.map_congr_left fun k hk => (wordElement_eq_operand_iff k k).2 ⟨h k hk, rfl⟩

theorem map_byteElement (y : Word) (as : List Byte) (h : ∀ k ∈ as, k.toNat < 0xFE) :
    as.map (byteElement y) = (as.map fun k => y + BitVec.ofNat 16 k.toNat).map .operand := by
  rw [List.map_map]
  exact List.map_congr_left fun k hk => (byteElement_eq_operand_iff y k _).2 ⟨h k hk, rfl⟩

/-- An evaluation that resumes none starts an empty record. -/
theorem ruleStart_of_startsAfresh (h : StartsAfresh s) (wide : Bool) :
    ruleStart wide s = { s with progress := ruleProgress wide, outputs := [], consumed := [] } := by
  have hnone (r : RuleRecord) (hr : r ∈ s.suspended) : resumesRecord s r = false := by
    rw [Bool.eq_false_iff]
    intro hres
    simp only [resumesRecord, Bool.and_eq_true, beq_iff_eq] at hres
    exact h r hr (by simpa [and_assoc] using hres)
  rw [ruleStart, enterRules_fresh hnone]

/-- REV or REVW with no budget, on one rule. -/
theorem oneRule_run {wide : Bool} {as cs : List Word} (hram : AllRam s) (hfresh : StartsAfresh s) (hb : s.budget = none)
    (hv : s.flagV = false) (ha : s.a = 0xFF) (hlen : as.length + cs.length + 2 ≤ 65536)
    (hlist : ∀ i (h : i < (oneRule as cs).length), ruleElement wide (atPass wide s i) = (oneRule as cs)[i])
    (hdis : ∀ k < ruleStride wide * (as.length + cs.length + 2), ∀ c ∈ cs, s.x + BitVec.ofNat 16 k ≠ c) :
    let t := runRule wide (ruleStart wide s)
    t.a.toNat = ruleTruth wide s as ∧ t.x = s.x + BitVec.ofNat 16 (ruleStride wide * (as.length + cs.length + 2)) ∧
      t.y = (if wide && s.flagC then s.y + 1 else s.y) ∧ t.pc = s.pc ∧ t.progress = .none ∧ t.flagV = true ∧
      (wide = true → t.flagC = s.flagC) ∧
      ∀ z, (ramByte t z).toNat =
        if z ∈ cs then max (ramByte s z).toNat (ruleTruth wide s as) else (ramByte s z).toNat := by
  have hstart := ruleStart_of_startsAfresh hfresh wide
  have hx0 : (ruleStart wide s).x = s.x := by rw [hstart]
  have hy0 : (ruleStart wide s).y = s.y := by rw [hstart]
  have hc0 : (ruleStart wide s).flagC = s.flagC := by rw [hstart]; rfl
  have hl : RuleList wide (ruleStart wide s) cs (oneRule as cs) := by
    refine ⟨hram.of_sameMemory (sameMemory_ruleStart wide s) (by rw [hstart]), rfl, fun i h => ?_, ?_⟩
    · rw [← hlist i h]
      refine ruleElement_congr (by rw [hstart]; rfl) (fun _ => hy0) fun k _ => ?_
      rw [read8_atPass_ruleStart]
      apply read8_congr <;> rfl
    · rw [length_oneRule, hx0]
      exact hdis
  have hlimit : passLimit (ruleStart wide s) 65536 =
      as.length + cs.length + 2 + (65536 - (as.length + cs.length + 2)) := by
    have hn : (ruleStart wide s).budget = none := by rw [hstart]; exact hb
    rw [passLimit, hn, Option.getD_none]
    omega
  have hmem : (ruleStart wide s).mem = s.mem := by rw [hstart]
  have htruth : ruleTruth wide (ruleStart wide s) as = ruleTruth wide s as := by
    rw [ruleTruth, leastAt_congr hmem, hy0, hc0, ramByte, hmem]
    rfl
  obtain ⟨ha', hx, hy, hframe, hprogress, hv', hm⟩ := hl.oneRule_evaluated (by rw [hstart]; exact ha)
    (by rw [hstart]; exact hv) (by rw [hstart]) (by rw [hstart]) (65536 - (as.length + cs.length + 2))
  rw [← hlimit] at ha' hx hy hframe hprogress hv' hm
  rw [htruth] at ha' hm
  obtain ⟨-, hc⟩ := endRule_flags hframe
  have hpc := endRule_pc hframe
  simp only [ramByte, hmem] at hm
  rw [hx0] at hx
  rw [hy0, hc0] at hy
  exact ⟨ha', hx, hy, hpc.trans (if_pos hprogress), hprogress,
    (ruleFlags_getLsbD _ (by decide) (.inr (by decide))).trans hv', hc, hm⟩

end

/-- Settles O41: the list is one rule for the loop of REV. -/
theorem revEvaluatesARule : Obligations.RevEvaluatesARule := by
  unfold Obligations.RevEvaluatesARule
  intro s as cs hram hfresh hb hv ha hlt hlen hlist hdis
  have hele : (as ++ [0xFE] ++ cs ++ [0xFF]).map (byteElement s.y) =
      oneRule (as.map fun k => s.y + BitVec.ofNat 16 k.toNat) (cs.map fun k => s.y + BitVec.ofNat 16 k.toNat) := by
    rw [List.map_append, List.map_append, List.map_append,
      map_byteElement _ as fun k hk => hlt k (List.mem_append_left _ hk),
      map_byteElement _ cs fun k hk => hlt k (List.mem_append_right _ hk)]
    simp [oneRule, byteElement]
  refine ⟨_, exec_rev_eq s, ?_⟩
  obtain ⟨ha', hx, -, hpc, hprogress, hv', -, hm⟩ := oneRule_run (wide := false)
    (as := as.map fun k => s.y + BitVec.ofNat 16 k.toNat) (cs := cs.map fun k => s.y + BitVec.ofNat 16 k.toNat)
    hram hfresh hb hv ha (by simpa using hlen)
    (fun i h => by
      simp only [← hele, List.length_map] at h
      simp only [← hele, List.getElem_map]
      exact ruleElement_of_bytes hram hlist h)
    (by simpa [ruleStride] using hdis)
  simp only [List.length_map, ruleStride, Bool.false_eq_true, if_false, Nat.one_mul] at hx
  exact ⟨ha', hx, hpc, hprogress, hv', hm⟩

/-- Settles O42: the list is one rule for the loop of REVW. -/
theorem revwEvaluatesAWeightedRule : Obligations.RevwEvaluatesAWeightedRule := by
  unfold Obligations.RevwEvaluatesAWeightedRule
  intro s as cs hram hfresh hb hv ha hlt hlen hlist hdis
  have hele : (as ++ [0xFFFE] ++ cs ++ [0xFFFF]).map wordElement = oneRule as cs := by
    rw [List.map_append, List.map_append, List.map_append,
      map_wordElement as fun k hk => hlt k (List.mem_append_left _ hk),
      map_wordElement cs fun k hk => hlt k (List.mem_append_right _ hk)]
    simp [oneRule, wordElement]
  refine ⟨_, exec_revw_eq s, ?_⟩
  obtain ⟨ha', hx, hy, hpc, hprogress, hv', hc, hm⟩ := oneRule_run (wide := true) (as := as) (cs := cs)
    hram hfresh hb hv ha (by omega)
    (fun i h => by
      simp only [← hele, List.length_map] at h
      simp only [← hele, List.getElem_map]
      exact ruleElement_of_words hram hlist h)
    hdis
  exact ⟨ha', hx, hy, hpc, hprogress, hv', hc rfl, hm⟩

end Sys2Proof.Machine
end

section
/-! PROOF. REV, REVW and WAV stopped and gone on with (45_fuzzy_minmax_mac_tbl.md R410): what a stop changes, the flags
that are undefined anyway and the budget, no pass reads. -/

namespace Sys2Proof.Machine

/-! ## Loops -/

section
variable {pass : State → State} {s t : State}

/-- Passes that have not finished the instruction, gone on with. -/
theorem ruleLoop_add {n : Nat} (h : (ruleLoop pass n s).progress ≠ .none) (m : Nat) :
    ruleLoop pass (n + m) s = ruleLoop pass m (ruleLoop pass n s) := by
  induction n generalizing s with
  | zero => rw [Nat.zero_add, ruleLoop]
  | succ n ih =>
    rw [Nat.add_right_comm]
    cases ho : ruleListOverlap s with
    | true =>
      have hstay (k : Nat) : ruleLoop pass k s = s := by cases k <;> simp [ruleLoop, ho]
      rw [hstay, hstay, hstay]
    | false =>
      simp only [ruleLoop, ho, Bool.false_eq_true, if_false] at h ⊢
      split at h
      · next hdone => exact absurd hdone h
      · next hgoes =>
        rw [if_neg hgoes, if_neg hgoes]
        exact ih h

/-- More passes than are needed. -/
theorem ruleLoop_of_finished {n : Nat} (hs : s.progress ≠ .none) (h : (ruleLoop pass n s).progress = .none) (m : Nat) :
    ruleLoop pass (n + m) s = ruleLoop pass n s := by
  induction n generalizing s with
  | zero => exact absurd h hs
  | succ n ih =>
    rw [Nat.add_right_comm]
    cases ho : ruleListOverlap s with
    | true => simp only [ruleLoop, ho, if_true]
    | false =>
      simp only [ruleLoop, ho, Bool.false_eq_true, if_false] at h ⊢
      split
      · rfl
      · next hgoes =>
        rw [if_neg hgoes] at h
        exact ih hgoes h

/-- Stopped and gone on with, a loop ends where it ends when it is not stopped. -/
theorem ruleLoop_resumed {n N : Nat} (hs : s.progress ≠ .none) (hn : (ruleLoop pass n s).progress ≠ .none)
    (hN : (ruleLoop pass N s).progress = .none) : ruleLoop pass N (ruleLoop pass n s) = ruleLoop pass N s := by
  rw [← ruleLoop_add hn, Nat.add_comm, ruleLoop_of_finished hs hN]

/-- What each pass keeps between two states holds between them after a loop. -/
theorem ruleLoop_rel {R : State → State → Prop} {P : State → Prop} (hgoes : ∀ s t, R s t → t.progress = s.progress)
    (hover : ∀ s t, R s t → ruleListOverlap t = ruleListOverlap s)
    (hpass : ∀ s t, s.progress ≠ .none → P s → R s t → R (pass s) (pass t)) (N : Nat) {s t : State}
    (hs : s.progress ≠ .none) (hP : ∀ n, P (ruleLoop pass n s)) (h : R s t) :
    R (ruleLoop pass N s) (ruleLoop pass N t) := by
  induction N generalizing s t with
  | zero => exact h
  | succ N ih =>
    have e := hover s t h
    cases ho : ruleListOverlap s with
    | true =>
      simp only [ruleLoop, e, ho, if_true]
      exact h
    | false =>
      have hnext := hpass s t hs (hP 0) h
      have hp := hgoes _ _ hnext
      have hP' (n : Nat) := hP (n + 1)
      simp only [ruleLoop, e, ho, Bool.false_eq_true, if_false, hp] at hP' ⊢
      split
      · exact hnext
      · next hg =>
        simp only [hg, if_false] at hP'
        exact ih hg hP' hnext

end

/-! ## Flags and budget -/

/-- The state with another CCR and budget. -/
def redress (s : State) (c : Byte) (o : Option Nat) : State := { s with ccr := c, budget := o }

/-- `t` is `s` but for the budget and the flags at some bits. -/
def DiffersAt (bits : List Nat) (s t : State) : Prop :=
  ∃ c o, t = redress s c o ∧ ∀ k, k ∉ bits → c.getLsbD k = s.ccr.getLsbD k

section
variable {wide : Bool} {bits : List Nat} {s t u : State}

theorem locate_redress (s : State) (c : Byte) (o : Option Nat) (a : Word) : locate (redress s c o) a = locate s a :=
  locate_congr rfl rfl rfl rfl rfl a

theorem slotAt_redress (s : State) (c : Byte) (o : Option Nat) (a : Word) : slotAt (redress s c o) a = slotAt s a := by
  rw [slotAt, slotAt, locate_redress]

theorem read8_redress (s : State) (c : Byte) (o : Option Nat) (d : Draw) (a : Word) :
    read8 (redress s c o) d a = read8 s d a := by
  apply read8_congr <;> rfl

theorem noteStore_redress (s t : State) (c : Byte) (o : Option Nat) (q : Slot) :
    noteStore (redress s c o) (redress t c o) q = redress (noteStore s t q) c o := by
  have e : slotAt (redress s c o) = slotAt s := funext (slotAt_redress s c o)
  have hp : prefetchAddresses (redress s c o) = prefetchAddresses s := rfl
  rw [noteStore, noteStore, e, hp]
  split <;> rfl

theorem noteRemap_redress (s t : State) (c : Byte) (o : Option Nat) :
    noteRemap (redress s c o) (redress t c o) = redress (noteRemap s t) c o := by
  have es : slotAt (redress s c o) = slotAt s := funext (slotAt_redress s c o)
  have et : slotAt (redress t c o) = slotAt t := funext (slotAt_redress t c o)
  have hp : prefetchAddresses (redress s c o) = prefetchAddresses s := rfl
  rw [noteRemap, noteRemap, es, et, hp]
  rfl

theorem setTarget_redress (s : State) (c : Byte) (o : Option Nat) (v : Byte) (g : Target) :
    setTarget (redress s c o) v g = redress (setTarget s v g) c o := by
  cases g with
  | cell k w => cases w <;> rfl
  | ppage | dpage | epage | device | nothing => rfl

/-- A store is the same store under other flags and another budget. -/
theorem store8_redress (s : State) (c : Byte) (o : Option Nat) (a : Word) (v : Byte) :
    store8 (redress s c o) a v = redress (store8 s a v) c o := by
  have hwrite : write8 (redress s c o) a v = redress (write8 s a v) c o := by
    rw [write8, write8, locate_redress, writeTarget, writeTarget, setTarget_redress]
    cases locate s a with
    | cell k w =>
      cases w with
      | true => exact noteStore_redress ..
      | false => rfl
    | ppage | dpage | epage => simp only [noteStale, noteStore_redress, noteRemap_redress]
    | device | nothing => rfl
  rw [store8, hwrite]
  rfl

theorem ruleElement_redress (s : State) (c : Byte) (o : Option Nat) :
    ruleElement wide (redress s c o) = ruleElement wide s :=
  ruleElement_congr rfl (fun _ => rfl) fun _ _ => read8_redress ..

theorem ruleNext_redress (s : State) (c : Byte) (o : Option Nat) :
    ruleNext wide (redress s c o) = redress (ruleNext wide s) c o := by
  have e : slotAt (redress s c o) = slotAt s := funext (slotAt_redress s c o)
  rw [ruleNext, consume, e]
  rfl

theorem consequent_redress (s : State) (c : Byte) (o : Option Nat) (ea : Word) (m : Byte) :
    consequent (redress s c o) ea m = redress (consequent s ea m) c o := by
  have ha : (redress s c o).a = s.a := rfl
  rw [consequent, consequent, ha, store8_redress, slotAt_redress]
  split <;> rfl

theorem antecedent_redress (s : State) (c : Byte) (o : Option Nat) (m : Byte) :
    antecedent (redress s c o) m = redress (antecedent s m) c o := by
  have ha : (redress s c o).a = s.a := rfl
  rw [antecedent, antecedent, ha]
  split <;> rfl

/-- A pass of a rule evaluation reads V, and C in REVW. -/
theorem DiffersAt.rulePass (h : DiffersAt bits s t) (h1 : 1 ∉ bits) (h0 : wide = true → 0 ∉ bits) :
    DiffersAt bits (rulePass wide s) (rulePass wide t) := by
  obtain ⟨c, o, rfl, hbits⟩ := h
  have hv : (redress s c o).flagV = s.flagV := hbits 1 h1
  have hw : (wide && (redress s c o).flagC) = (wide && s.flagC) := by
    cases wide with
    | false => rfl
    | true => exact hbits 0 (h0 rfl)
  have hsame (u : State) (hu : u.ccr = s.ccr) : DiffersAt bits u (redress u c o) :=
    ⟨c, o, rfl, by rw [hu]; exact hbits⟩
  have htoggle (u : State) (hu : u.ccr = s.ccr) : DiffersAt bits (toggleV u) (toggleV (redress u c o)) := by
    refine ⟨putBit c 1 !c.getLsbD 1, o, rfl, fun k hk => ?_⟩
    have hu1 : u.flagV = c.getLsbD 1 := by rw [State.flagV, hu]; exact (hbits 1 h1).symm
    rw [toggleV, State.setCcr_ccr, hu1, hu]
    by_cases k1 : k = 1
    · rw [k1]; simp
    · rw [putBit_getLsbD_of_ne _ _ (by decide) k1, putBit_getLsbD_of_ne _ _ (by decide) k1, hbits k hk]
  rw [Machine.rulePass, Machine.rulePass, ruleElement_redress]
  cases ruleElement wide s with
  | stop =>
    rw [applyElement, applyElement, ruleNext_redress]
    exact hsame (finished (ruleNext wide s)) rfl
  | separator =>
    rw [applyElement, applyElement, ruleNext_redress, hv, ruleWeigh, ruleWeigh, hw, read8_redress]
    split
    · exact htoggle ((ruleNext wide s).setA 0xFF) rfl
    · split
      · exact htoggle (((ruleNext wide s).setA (weighted s.a (read8 s .third s.y))).setY (s.y + 1)) rfl
      · exact htoggle (ruleNext wide s) rfl
  | operand ea =>
    rw [applyElement, applyElement, ruleNext_redress, hv, read8_redress, consequent_redress, antecedent_redress]
    split
    · exact hsame _ (consequent_ccr _ _ _)
    · exact hsame _ (by unfold antecedent; split <;> rfl)

theorem ruleListOverlap_redress (s : State) (c : Byte) (o : Option Nat) :
    ruleListOverlap (redress s c o) = ruleListOverlap s := by
  have e : slotAt (redress s c o) = slotAt s := funext (slotAt_redress s c o)
  have hp : (redress s c o).progress = s.progress := rfl
  simp only [ruleListOverlap, overlapsOutputs, e, hp]
  rfl

/-- So do all passes. -/
theorem DiffersAt.ruleLoop {pass : State → State} (hpass : ∀ s t, DiffersAt bits s t → DiffersAt bits (pass s) (pass t))
    (N : Nat) (hs : s.progress ≠ .none) (h : DiffersAt bits s t) :
    DiffersAt bits (ruleLoop pass N s) (ruleLoop pass N t) := by
  refine ruleLoop_rel (P := fun _ => True) ?_ ?_ (fun s t _ _ h => hpass s t h) N hs (fun _ => trivial) h
  · rintro s t ⟨c, o, rfl, -⟩
    rfl
  · rintro s t ⟨c, o, rfl, -⟩
    exact ruleListOverlap_redress s c o

/-! ## REV and REVW -/

/-- The flags that the end of a run leaves undefined (U3). -/
def ruleFreed (wide : Bool) : List Nat := if wide then [5, 3, 2] else [5, 3, 2, 0]

theorem ruleFreed_iff {k : Nat} : k ∉ ruleFreed wide ↔ k ∉ [5, 3, 2] ∧ (wide = true ∨ k ≠ 0) := by
  cases wide <;> simp [ruleFreed, and_assoc]

/-- The end of a run makes the flags equal. -/
theorem DiffersAt.endRule (h : DiffersAt (ruleFreed wide) s t) (hb : t.budget = s.budget) :
    endRule wide t = endRule wide s := by
  obtain ⟨c, o, rfl, hbits⟩ := h
  obtain rfl : o = s.budget := hb
  have hflags : ruleFlags wide (redress s c s.budget) = ruleFlags wide s := by
    refine byte_ext fun k _ => ?_
    by_cases hk : k ∈ ruleFreed wide
    · have hfree (i : Nat) : freeFlag (redress s c s.budget) i = freeFlag s i := rfl
      cases wide with
      | true =>
        simp only [ruleFreed, if_true, List.mem_cons, List.not_mem_nil, or_false] at hk
        rcases hk with rfl | rfl | rfl <;> simp [ruleFlags, putNZ, putZ, hfree]
      | false =>
        simp only [ruleFreed, Bool.false_eq_true, if_false, List.mem_cons, List.not_mem_nil, or_false] at hk
        rcases hk with rfl | rfl | rfl | rfl <;> simp [ruleFlags, putNZC, putNZ, putZ, hfree]
    · obtain ⟨h532, h0⟩ := ruleFreed_iff.1 hk
      rw [ruleFlags_getLsbD _ h532 h0, ruleFlags_getLsbD _ h532 h0]
      exact hbits k hk
  rw [Machine.endRule, hflags]
  rfl

theorem ruleProgress_ne_none (wide : Bool) : ruleProgress wide ≠ .none := by cases wide <;> simp [ruleProgress]

/-- What any number of passes keeps. -/
theorem ruleFrame_ruleLoop (hs : s.progress = ruleProgress wide) (N : Nat) :
    RuleFrame s (ruleLoop (rulePass wide) N s) := by
  obtain ⟨n, h⟩ := ruleRun_ruleLoop hs N
  exact h.frame

theorem ruleLoop_budget (hs : s.progress = ruleProgress wide) (N : Nat) :
    (ruleLoop (rulePass wide) N s).budget = s.budget := by
  rw [(ruleFrame_ruleLoop hs N).1]

/-- What the passes do between two states that differ where the end of a run frees the flags. -/
theorem DiffersAt.ruleLoop_rulePass (h : DiffersAt (ruleFreed wide) s t) (hs : s.progress ≠ .none) (N : Nat) :
    DiffersAt (ruleFreed wide) (Machine.ruleLoop (Machine.rulePass wide) N s)
      (Machine.ruleLoop (Machine.rulePass wide) N t) :=
  h.ruleLoop (fun _ _ h => h.rulePass (by cases wide <;> decide) (by rintro rfl; decide)) N hs

/-- An evaluation that goes on after the end of a run goes on from where its passes stood. -/
theorem runRule_endRule {q : State} {c : Byte} {o : Option Nat} (hq : q.progress = ruleProgress wide)
    (hb : q.budget = none) (hbits : ∀ k, k ∉ ruleFreed wide → c.getLsbD k = q.ccr.getLsbD k) :
    let t := endRule wide (redress q c o)
    runRule wide { t with budget := none, pc := t.pc + 2 } = endRule wide (ruleLoop (rulePass wide) 65536 q) := by
  have hgoes : q.progress ≠ .none := hq ▸ ruleProgress_ne_none wide
  have hpc : (endRule wide (redress q c o)).pc + 2 = q.pc := by
    have e : (endRule wide (redress q c o)).pc = q.pc - 2 := if_neg hgoes
    rw [e, BitVec.sub_add_cancel]
  have hdiffers : DiffersAt (ruleFreed wide) q (redress q (ruleFlags wide (redress q c o)) none) := by
    refine ⟨_, _, rfl, fun k hk => ?_⟩
    obtain ⟨h532, h0⟩ := ruleFreed_iff.1 hk
    rw [ruleFlags_getLsbD _ h532 h0]
    exact hbits k hk
  have hbudget := ruleLoop_budget (s := redress q (ruleFlags wide (redress q c o)) none) hq 65536
  simp only [hpc]
  refine (hdiffers.ruleLoop_rulePass hgoes 65536).endRule (hbudget.trans ?_)
  rw [ruleLoop_budget hq, hb]
  rfl

/-- A run that is stopped and gone on with is the run that is not stopped. -/
theorem runRule_resumed (hs : s.progress = ruleProgress wide) (hb : s.budget = none) (n : Nat)
    (hstop : (runRule wide { s with budget := some n }).progress ≠ .none) (hdone : (runRule wide s).progress = .none) :
    let t := runRule wide { s with budget := some n }
    runRule wide { t with budget := none, pc := t.pc + 2 } = runRule wide s := by
  have hgoes : s.progress ≠ .none := hs ▸ ruleProgress_ne_none wide
  have hfull : runRule wide s = endRule wide (ruleLoop (rulePass wide) 65536 s) := by
    rw [runRule, passLimit, hb, Option.getD_none]
  have hstart : DiffersAt (ruleFreed wide) s { s with budget := some n } := ⟨s.ccr, some n, rfl, fun _ _ => rfl⟩
  obtain ⟨c, o, hq, hbits⟩ := hstart.ruleLoop_rulePass hgoes n
  have hend : runRule wide { s with budget := some n } =
      endRule wide (redress (ruleLoop (rulePass wide) n s) c o) := congrArg (endRule wide) hq
  rw [hend] at hstop
  have hprogress : (ruleLoop (rulePass wide) n s).progress = ruleProgress wide := by
    obtain ⟨m, hrun⟩ := ruleRun_ruleLoop hs n
    exact (hrun.progress.resolve_left hstop).trans hs
  rw [hfull] at hdone
  simp only [hend]
  rw [hfull, ← ruleLoop_resumed hgoes hstop hdone]
  exact runRule_endRule hprogress ((ruleLoop_budget hs n).trans hb) hbits

/-- The entry does not look at the budget. -/
theorem ruleStart_budget (wide : Bool) (s : State) (o : Option Nat) :
    ruleStart wide { s with budget := o } = { ruleStart wide s with budget := o } := by
  have hown : ownRecord { s with budget := o } = ownRecord s := rfl
  rw [ruleStart, ruleStart, enterRules, enterRules, hown]
  cases ownRecord s <;> rfl

/-- The first and the second part of the statement. -/
theorem stoppedRuleResumed (wide : Bool) {s : State} (hb : s.budget = none) (n : Nat)
    (hstop : (runRule wide (ruleStart wide { s with budget := some n })).progress = ruleProgress wide)
    (hdone : (runRule wide (ruleStart wide s)).progress = .none) :
    let t := runRule wide (ruleStart wide { s with budget := some n })
    runRule wide { t with budget := none, pc := t.pc + 2 } = runRule wide (ruleStart wide s) := by
  simp only [ruleStart_budget] at hstop ⊢
  refine runRule_resumed rfl ?_ n (hstop ▸ ruleProgress_ne_none wide) hdone
  rw [ruleStart_eq]
  exact hb

end

/-! ## WAV -/

section
variable {bits : List Nat} {s t : State}

theorem wavPass_progress (h : s.progress = .wav) : (wavPass s).progress = .none ∨ (wavPass s).progress = .wav := by
  by_cases hb : s.b = 0
  · exact .inl (by rw [wavPass_of_zero s hb]; rfl)
  · exact .inr (by rw [wavPass_of_ne_zero s hb]; exact h)

/-- The loop of WAV is one that meets no written output. -/
theorem wavLoop_eq_ruleLoop (h : s.progress = .wav) (N : Nat) : wavLoop N s = ruleLoop wavPass N s := by
  induction N generalizing s with
  | zero => rfl
  | succ N ih =>
    have ho : ruleListOverlap s = false := by rw [ruleListOverlap, h]
    simp only [wavLoop, ruleLoop, ho, Bool.false_eq_true, if_false]
    split
    · rfl
    · next hgoes => exact ih ((wavPass_progress h).resolve_left hgoes)

/-- A pass of WAV reads no flag. -/
theorem DiffersAt.wavPass (h : DiffersAt bits s t) : DiffersAt bits (wavPass s) (wavPass t) := by
  obtain ⟨c, o, rfl, hbits⟩ := h
  have hacc : wavAccumulate (redress s c o) = redress (wavAccumulate s) c o := by
    rw [wavAccumulate, read8_redress, read8_redress]
    rfl
  by_cases hb : s.b = 0
  · rw [wavPass_of_zero s hb, wavPass_of_zero (redress s c o) hb, hacc]
    exact ⟨c, o, rfl, hbits⟩
  · rw [wavPass_of_ne_zero s hb, wavPass_of_ne_zero (redress s c o) hb, hacc]
    exact ⟨c, o, rfl, hbits⟩

/-- Any number of passes of WAV keeps the PC and the budget. -/
theorem wavLoop_frame (N : Nat) (s : State) : (wavLoop N s).pc = s.pc ∧ (wavLoop N s).budget = s.budget := by
  have hpass (u : State) : (wavPass u).pc = u.pc ∧ (wavPass u).budget = u.budget := by
    unfold wavPass
    split <;> exact ⟨rfl, rfl⟩
  induction N generalizing s with
  | zero => exact ⟨rfl, rfl⟩
  | succ N ih =>
    obtain ⟨hpc, hb⟩ := hpass s
    obtain ⟨ihpc, ihb⟩ := ih (wavPass s)
    simp only [wavLoop]
    split
    · exact ⟨hpc, hb⟩
    · exact ⟨ihpc.trans hpc, ihb.trans hb⟩

/-- The flags that WAV leaves undefined at a stop (U4). -/
def wavFreed : List Nat := [5, 3, 2, 1, 0]

theorem freeHNZVC_getLsbD (s : State) {k : Nat} (h : k ∉ wavFreed) : (freeHNZVC s).getLsbD k = s.ccr.getLsbD k := by
  simp only [wavFreed, List.mem_cons, List.not_mem_nil, or_false, not_or] at h
  obtain ⟨h5, h3, h2, h1, h0⟩ := h
  simp [freeHNZVC, putHNZVC, putNZVC, putNZV, putNZ, putZ, putBit_getLsbD, h5, h3, h2, h1, h0]

/-- The end of WAV makes the flags equal. -/
theorem DiffersAt.endWav (h : DiffersAt wavFreed s t) (hb : t.budget = s.budget) : endWav t = endWav s := by
  obtain ⟨c, o, rfl, hbits⟩ := h
  obtain rfl : o = s.budget := hb
  have hflags : freeHNZVC (redress s c s.budget) = freeHNZVC s := by
    refine byte_ext fun k _ => ?_
    by_cases hk : k ∈ wavFreed
    · have hfree (i : Nat) : freeFlag (redress s c s.budget) i = freeFlag s i := rfl
      simp only [wavFreed, List.mem_cons, List.not_mem_nil, or_false] at hk
      rcases hk with rfl | rfl | rfl | rfl | rfl <;>
        simp [freeHNZVC, putHNZVC, putNZVC, putNZV, putNZ, putZ, hfree]
    · rw [freeHNZVC_getLsbD _ hk, freeHNZVC_getLsbD _ hk]
      exact hbits k hk
  have hp : (redress s c s.budget).progress = s.progress := rfl
  rw [Machine.endWav, Machine.endWav, hflags, hp]
  split <;> rfl

/-- WAV is done after 256 passes. -/
theorem wavLoop_finishes (h : s.progress = .wav) : (wavLoop 256 s).progress = .none := by
  obtain ⟨-, -, hframe⟩ := wavDone_wavLoop (n := 256) h rfl (BitVec.isLt _)
  rw [hframe]

/-- WAV that goes on after a stop goes on from where its passes stood. -/
theorem runWav_endWav {q : State} {c : Byte} {o : Option Nat} (hq : q.progress = .wav) (hb : q.budget = none)
    (hbits : ∀ k, k ∉ wavFreed → c.getLsbD k = q.ccr.getLsbD k) : let t := endWav (redress q c o)
    t.pc = q.pc - 1 ∧ runWav { t with budget := none, pc := t.pc + 1 } = endWav (wavLoop 256 q) := by
  have hgoes : q.progress ≠ .none := by rw [hq]; simp
  have hend : endWav (redress q c o) = { redress q (freeHNZVC (redress q c o)) o with pc := q.pc - 1 } := if_neg hgoes
  have hdiffers : DiffersAt wavFreed q (redress q (freeHNZVC (redress q c o)) none) :=
    ⟨_, _, rfl, fun k hk => (freeHNZVC_getLsbD _ hk).trans (hbits k hk)⟩
  have hloop := hdiffers.ruleLoop (fun _ _ h => h.wavPass) 256 hgoes
  rw [← wavLoop_eq_ruleLoop hq, ← wavLoop_eq_ruleLoop (s := redress q (freeHNZVC (redress q c o)) none) hq] at hloop
  obtain ⟨-, hbq⟩ := wavLoop_frame 256 q
  obtain ⟨-, hbr⟩ := wavLoop_frame 256 (redress q (freeHNZVC (redress q c o)) none)
  simp only [hend, BitVec.sub_add_cancel, true_and]
  exact hloop.endWav (hbr.trans (hbq.trans hb).symm)

/-- WAV that is stopped and gone on with is WAV that is not stopped. -/
theorem runWav_resumed (hp : s.progress = .wav) (hb : s.budget = none) (n : Nat)
    (hstop : (runWav { s with budget := some n }).progress = .wav) :
    let t := runWav { s with budget := some n }
    t.pc = s.pc - 1 ∧ runWav { t with budget := none, pc := t.pc + 1 } = endWav (wavLoop 256 s) := by
  have hgoes : s.progress ≠ .none := by rw [hp]; simp
  have hstart : DiffersAt wavFreed s { s with budget := some n } := ⟨s.ccr, some n, rfl, fun _ _ => rfl⟩
  obtain ⟨c, o, hq, hbits⟩ := hstart.ruleLoop (fun _ _ h => h.wavPass) n hgoes
  rw [← wavLoop_eq_ruleLoop hp, ← wavLoop_eq_ruleLoop (s := { s with budget := some n }) hp] at hq
  rw [← wavLoop_eq_ruleLoop hp] at hbits
  obtain ⟨hqpc, hqb⟩ := wavLoop_frame n s
  have hend : runWav { s with budget := some n } = endWav (redress (wavLoop n s) c o) := congrArg endWav hq
  have hkeep (u : State) : (endWav u).progress = u.progress := by unfold endWav; split <;> rfl
  have hprogress : (wavLoop n s).progress = .wav := by
    rw [hend, hkeep] at hstop
    exact hstop
  obtain ⟨hpc, hrun⟩ := runWav_endWav (o := o) hprogress (hqb.trans hb) hbits
  rw [wavLoop_eq_ruleLoop hp] at hprogress
  have hdone := wavLoop_finishes hp
  rw [wavLoop_eq_ruleLoop hp] at hdone
  have hresumed : wavLoop 256 (wavLoop n s) = wavLoop 256 s := by
    rw [wavLoop_eq_ruleLoop hp n, wavLoop_eq_ruleLoop hprogress, wavLoop_eq_ruleLoop hp,
      ruleLoop_resumed hgoes (by rw [hprogress]; simp) hdone]
  rw [hresumed] at hrun
  simp only [hend]
  exact ⟨by rw [hpc, hqpc], hrun⟩

end

end Sys2Proof.Machine
end

section
/-! PROOF. REV, REVW and WAV across an interrupt where memory is RAM (45_fuzzy_minmax_mac_tbl.md R414, R416, R417): two
states that agree in what the passes read, and in memory but for the bytes `K`, stay so. The interrupt point itself is
compared with the execution that goes on from it and with the one that RTI goes back to. -/

namespace Sys2Proof.Machine

/-! ## Agreement -/

/-- RAM, the same but for the bytes at `K`. -/
def RamAgree (K : List Word) (s t : State) : Prop :=
  AllRam s ∧ AllRam t ∧ ∀ a, a ∉ K → ramByte t a = ramByte s a

/-- What REV and REVW read is the same. -/
structure RuleAgree (K : List Word) (s t : State) : Prop where
  ram : RamAgree K s t
  a : t.a = s.a
  x : t.x = s.x
  y : t.y = s.y
  flagV : t.flagV = s.flagV
  flagC : t.flagC = s.flagC
  progress : t.progress = s.progress
  outputs : t.outputs = s.outputs
  consumed : t.consumed = s.consumed

/-- What WAV reads is the same. -/
structure WavAgree (K : List Word) (s t : State) : Prop where
  ram : RamAgree K s t
  a : t.a = s.a
  b : t.b = s.b
  x : t.x = s.x
  y : t.y = s.y
  tmp1 : t.tmp1 = s.tmp1
  tmp2 : t.tmp2 = s.tmp2
  tmp3 : t.tmp3 = s.tmp3
  progress : t.progress = s.progress

section
variable {wide : Bool} {K : List Word} {s t u v : State}

theorem RamAgree.left (h : RamAgree K s t) : AllRam s := And.left h

theorem RamAgree.right (h : RamAgree K s t) : AllRam t := h.2.1

theorem RamAgree.bytes (h : RamAgree K s t) {a : Word} (ha : a ∉ K) : ramByte t a = ramByte s a := h.2.2 a ha

theorem RamAgree.of_sameMemory (h : RamAgree K s t) (hs : SameMemory s u) (ht : SameMemory t v)
    (es : u.earlier = s.earlier) (et : v.earlier = t.earlier) : RamAgree K u v :=
  ⟨h.left.of_sameMemory hs es, h.right.of_sameMemory ht et, fun a ha => by
    rw [ramByte_of_sameMemory hs, ramByte_of_sameMemory ht]; exact h.bytes ha⟩

theorem RamAgree.read8 (h : RamAgree K s t) {a : Word} (ha : a ∉ K) (d : Draw) : read8 t d a = read8 s d a := by
  rw [h.right.read8, h.left.read8, h.bytes ha]

theorem RamAgree.slotAt (h : RamAgree K s t) : slotAt t = slotAt s :=
  funext fun a => by rw [h.right.slotAt, h.left.slotAt]

theorem RamAgree.store8 (h : RamAgree K s t) (a : Word) (m : Byte) : RamAgree K (store8 s a m) (store8 t a m) := by
  have hwrite : RamAgree K (write8 s a m) (write8 t a m) :=
    ⟨h.left.write8 a m, h.right.write8 a m, fun z hz => by
      rw [h.right.ramByte_write8, h.left.ramByte_write8, h.bytes hz]⟩
  exact hwrite.of_sameMemory ⟨rfl, rfl, rfl, rfl, rfl, rfl⟩ ⟨rfl, rfl, rfl, rfl, rfl, rfl⟩ rfl rfl

/-! ## Passes of REV and REVW -/

theorem RuleAgree.store8 (h : RuleAgree K s t) (a : Word) (m : Byte) : RuleAgree K (store8 s a m) (store8 t a m) where
  ram := h.ram.store8 a m
  a := by simpa using h.a
  x := by simpa using h.x
  y := by simpa using h.y
  flagV := by simpa [State.flagV] using h.flagV
  flagC := by simpa [State.flagC] using h.flagC
  progress := by simpa using h.progress
  outputs := by simpa using h.outputs
  consumed := by simpa using h.consumed

theorem RuleAgree.setA (h : RuleAgree K s t) (m : Byte) : RuleAgree K (s.setA m) (t.setA m) := { h with a := rfl }

theorem RuleAgree.setY (h : RuleAgree K s t) (m : Word) : RuleAgree K (s.setY m) (t.setY m) := { h with y := rfl }

theorem RuleAgree.finished (h : RuleAgree K s t) : RuleAgree K (finished s) (finished t) := { h with progress := rfl }

theorem RuleAgree.toggleV (h : RuleAgree K s t) : RuleAgree K (toggleV s) (toggleV t) := by
  obtain ⟨sv, sc⟩ := toggleV_flags s
  obtain ⟨tv, tc⟩ := toggleV_flags t
  exact { h with flagV := by rw [sv, tv, h.flagV], flagC := by rw [sc, tc, h.flagC] }

theorem RuleAgree.ruleNext (h : RuleAgree K s t) : RuleAgree K (ruleNext wide s) (ruleNext wide t) :=
  { h with
    x := by rw [ruleNext_x, ruleNext_x, h.x]
    consumed := by rw [ruleNext_consumed, ruleNext_consumed, h.ram.slotAt, h.x, h.consumed] }

theorem RuleAgree.antecedent (h : RuleAgree K s t) (m : Byte) : RuleAgree K (antecedent s m) (antecedent t m) := by
  rw [Machine.antecedent, Machine.antecedent, h.a]
  split
  · exact h.setA m
  · exact h

theorem RuleAgree.consequent (h : RuleAgree K s t) (ea : Word) (m : Byte) :
    RuleAgree K (consequent s ea m) (consequent t ea m) := by
  have hstore := h.store8 ea s.a
  rw [Machine.consequent, Machine.consequent, h.a]
  split
  · exact { hstore with outputs := congrArg₂ List.cons (congrFun h.ram.slotAt ea) hstore.outputs }
  · exact h

/-- The next element's bytes, its operand and REVW's weight are not at `K`. -/
structure RuleReadsOutside (wide : Bool) (K : List Word) (s : State) : Prop where
  list : ∀ k ∈ ruleBytes wide, s.x + k ∉ K
  operand : ∀ ea, ruleElement wide s = .operand ea → ea ∉ K
  weight : wide = true → s.y ∉ K

/-- One pass. -/
theorem RuleAgree.rulePass (h : RuleAgree K s t) (hK : RuleReadsOutside wide K s) :
    RuleAgree K (rulePass wide s) (rulePass wide t) := by
  have helement : ruleElement wide t = ruleElement wide s :=
    ruleElement_congr h.x (fun _ => h.y) fun k hk => h.ram.read8 (hK.list k hk) _
  have hnext := h.ruleNext (wide := wide)
  rw [Machine.rulePass, Machine.rulePass, helement]
  cases he : ruleElement wide s with
  | stop => exact hnext.finished
  | separator =>
    rw [applyElement, applyElement, h.flagV]
    split
    · exact (hnext.setA 0xFF).toggleV
    · rw [ruleWeigh, ruleWeigh, h.flagC, h.a, h.y]
      split
      · next hw =>
        rw [Bool.and_eq_true] at hw
        rw [h.ram.read8 (hK.weight hw.1)]
        exact ((hnext.setA _).setY _).toggleV
      · exact hnext.toggleV
  | operand ea =>
    rw [applyElement, applyElement, h.flagV, h.ram.read8 (hK.operand ea he)]
    split
    · exact hnext.consequent ea _
    · exact hnext.antecedent _

theorem RuleAgree.ruleListOverlap (h : RuleAgree K s t) : ruleListOverlap t = ruleListOverlap s := by
  simp only [Machine.ruleListOverlap, overlapsOutputs, h.progress, h.ram.slotAt, h.x, h.outputs, h.consumed]

/-- What the statement says of a pass, for REV and REVW. -/
theorem ruleReadsOutside_of_passAddresses (hs : s.progress = ruleProgress wide)
    (h : ∀ a ∈ passAddresses s, a ∉ K) : RuleReadsOutside wide K s := by
  cases wide with
  | false =>
    have hp : passAddresses s = [s.x, s.y + (read8 s .operand s.x).setWidth 16] := by rw [passAddresses, hs]; rfl
    simp only [hp, List.forall_mem_cons, List.not_mem_nil, false_implies, implies_true, and_true] at h
    obtain ⟨hx, hea⟩ := h
    refine ⟨by simpa [ruleBytes] using hx, fun ea he => ?_, by simp⟩
    have e := ((byteElement_eq_operand_iff s.y (read8 s .operand s.x) ea).1 he).2
    rw [e, BitVec.ofNat_toNat]
    exact hea
  | true =>
    have hp : passAddresses s = [s.x, s.x + 1, s.y, read16 s .operand s.x] := by rw [passAddresses, hs]; rfl
    simp only [hp, List.forall_mem_cons, List.not_mem_nil, false_implies, implies_true, and_true] at h
    obtain ⟨hx, hx1, hy, hea⟩ := h
    refine ⟨by simpa [ruleBytes] using ⟨hx, hx1⟩, fun ea he => ?_, fun _ => hy⟩
    rw [((wordElement_eq_operand_iff (read16 s .operand s.x) ea).1 he).2]
    exact hea

/-- All passes. -/
theorem RuleAgree.ruleLoop (h : RuleAgree K s t) (hs : s.progress = ruleProgress wide)
    (hK : ∀ n, ∀ a ∈ passAddresses (ruleLoop (Machine.rulePass wide) n s), a ∉ K) (N : Nat) :
    RuleAgree K (ruleLoop (Machine.rulePass wide) N s) (ruleLoop (Machine.rulePass wide) N t) := by
  refine ruleLoop_rel (P := fun u => u.progress ≠ .none → RuleReadsOutside wide K u) (fun _ _ h => h.progress)
    (fun _ _ h => h.ruleListOverlap) (fun _ _ hg hP h => h.rulePass (hP hg)) N (hs ▸ ruleProgress_ne_none wide)
    (fun n hg => ?_) h
  obtain ⟨_, hrun⟩ := ruleRun_ruleLoop hs n
  have hp : (Machine.ruleLoop (Machine.rulePass wide) n s).progress = ruleProgress wide :=
    (hrun.progress.resolve_left hg).trans hs
  exact ruleReadsOutside_of_passAddresses hp (hK n)

/-! ## Passes of WAV -/

theorem WavAgree.accumulate (h : WavAgree K s t) (hx : s.x ∉ K) (hy : s.y ∉ K) :
    WavAgree K (wavAccumulate s) (wavAccumulate t) := by
  have hsum : wavSum t = wavSum s := by rw [wavSum, wavSum, h.tmp1, h.tmp2]
  rw [wavAccumulate, wavAccumulate, h.x, h.y, h.ram.read8 hx, h.ram.read8 hy, hsum, h.tmp3]
  exact { h with x := rfl, y := rfl, tmp1 := rfl, tmp2 := rfl, tmp3 := rfl }

theorem WavAgree.results (h : WavAgree K s t) : WavAgree K (finished (((s.setY s.tmp1).setD s.tmp2).setX s.tmp3))
    (finished (((t.setY t.tmp1).setD t.tmp2).setX t.tmp3)) :=
  { h with
    a := congrArg hiByte h.tmp2
    b := congrArg loByte h.tmp2
    x := h.tmp3
    y := h.tmp1
    progress := rfl }

/-- One pass. -/
theorem WavAgree.wavPass (h : WavAgree K s t) (hx : s.x ∉ K) (hy : s.y ∉ K) : WavAgree K (wavPass s) (wavPass t) := by
  have hnext := h.accumulate hx hy
  by_cases hb : s.b = 0
  · rw [wavPass_of_zero s hb, wavPass_of_zero t (h.b.trans hb)]
    exact hnext.results
  · rw [wavPass_of_ne_zero s hb, wavPass_of_ne_zero t (by rw [h.b]; exact hb), h.b]
    exact { hnext with b := rfl }

/-- All passes. -/
theorem WavAgree.wavLoop (h : WavAgree K s t) (hs : s.progress = .wav)
    (hK : ∀ n, ∀ a ∈ passAddresses (wavLoop n s), a ∉ K) (N : Nat) : WavAgree K (wavLoop N s) (wavLoop N t) := by
  induction N generalizing s t with
  | zero => exact h
  | succ N ih =>
    have hp : passAddresses s = [s.x, s.y] := by rw [passAddresses, hs]
    have hnow := hK 0
    simp only [Machine.wavLoop, hp, List.forall_mem_cons, List.not_mem_nil, false_implies, implies_true, and_true] at hnow
    have hnext := h.wavPass hnow.1 hnow.2
    have hlater (n : Nat) := hK (n + 1)
    simp only [Machine.wavLoop, hnext.progress] at hlater ⊢
    split
    · exact hnext
    · next hgoes =>
      simp only [hgoes, if_false] at hlater
      exact ih hnext ((wavPass_progress hs).resolve_left hgoes) hlater

end

/-! ## Return from the interrupt -/

/-- The X bit that RTI restores: it was not cleared before the interrupt and set after it. -/
theorem protectX_of_restored {old v : Byte} (h : v.getLsbD 6 = true → old.getLsbD 6 = true) : protectX old v = v := by
  refine byte_ext fun k _ => ?_
  by_cases hk : k = 6
  · subst hk
    rw [protectX, putBit_getLsbD _ _ _ (by decide), if_pos rfl]
    cases hv : v.getLsbD 6 with
    | false => rfl
    | true => rw [h hv]; rfl
  · rw [protectX, putBit_getLsbD_of_ne _ _ (by decide) hk]

/-- A word of what RAM holds. -/
theorem read16_of_ramHolds {h : State} (hr : AllRam h) {p : Word} {bs : List Byte} (hb : RamHolds h p bs) (d : Draw)
    (k : Nat) {v : Word} (hk : k + 1 < bs.length)
    (hv : bs[k]'(Nat.lt_of_succ_lt hk) = BitVec.ofNat 8 (v.toNat / 256) ∧ bs[k + 1]'hk = BitVec.ofNat 8 v.toNat) :
    read16 h d (p + BitVec.ofNat 16 k) = v := by
  have hnext : p + BitVec.ofNat 16 k + 1 = p + BitVec.ofNat 16 (k + 1) := by
    rw [BitVec.add_assoc, BitVec.ofNat_add]
    rfl
  rw [read16, hnext, hr.read8, hr.read8, hb k (Nat.lt_of_succ_lt hk), hb (k + 1) hk, hv.1, hv.2, ← hiByte_eq, ← loByte_eq,
    joinBytes_hiByte_loByte]

section
variable {s h : State}

/-- What RTI leaves of the handler's state: the registers are those of the interrupt point, but for PC and SP, which are
given. -/
def restored (s h : State) (pc sp : Word) : State :=
  { h with ccr := s.ccr, b := s.b, a := s.a, x := s.x, y := s.y, pc := pc, sp := sp, stale := [] }

/-- RTI takes back what the interrupt has stacked. -/
theorem returnFromException_of_ramHolds (hr : AllRam h) {rest : List Byte}
    (hb : RamHolds h h.sp (frameBytes s s.pc ++ rest)) (hx : s.flagX = true → h.flagX = true) :
    returnFromException h = restored s h s.pc (h.sp + 9) := by
  have hframe : RamHolds h h.sp (frameBytes s s.pc) := fun k hk => by
    rw [hb k (by rw [List.length_append]; exact Nat.lt_add_right _ hk)]
    exact List.getElem_append_left hk
  have hread (d : Draw) (k : Nat) (hk : k < 9) : read8 h d (h.sp + BitVec.ofNat 16 k) = (frameBytes s s.pc)[k]'hk :=
    (hr.read8 d _).trans (hframe k hk)
  have hccr : protectX h.ccr (read8 h .stack h.sp) = s.ccr := by
    have e : read8 h .stack h.sp = s.ccr :=
      (congrArg (read8 h .stack) (BitVec.add_zero h.sp)).symm.trans (hread .stack 0 (by decide))
    rw [e]
    exact protectX_of_restored hx
  have hb : read8 h .stack2 (h.sp + 1) = s.b := hread .stack2 1 (by decide)
  have ha : read8 h .stack2 (h.sp + 2) = s.a := hread .stack2 2 (by decide)
  have hxr : read16 h .stack3 (h.sp + 3) = s.x := read16_of_ramHolds hr hframe .stack3 3 (by simp [frameBytes]) ⟨rfl, rfl⟩
  have hyr : read16 h .stack5 (h.sp + 5) = s.y := read16_of_ramHolds hr hframe .stack5 5 (by simp [frameBytes]) ⟨rfl, rfl⟩
  have hpc : read16 h .stack4 (h.sp + 7) = s.pc := read16_of_ramHolds hr hframe .stack4 7 (by simp [frameBytes]) ⟨rfl, rfl⟩
  rw [returnFromException_eq, hccr, hb, ha, hxr, hyr, hpc]
  rfl

/-- The newest record is taken up if it is that of this execution. -/
theorem enterRules_of_head {r : RuleRecord} {rest : List RuleRecord} (hsuspended : s.suspended = r :: rest)
    (hr : resumesRecord s r = true) :
    enterRules s = { s with outputs := r.outputs, consumed := r.consumed, suspended := rest } := by
  simp [enterRules, ownRecord, hsuspended, hr]

/-- What the statement compares at the end of two executions of one instruction. -/
def EndsAlike (p : Progress) (K : List Word) (t f : State) : Prop :=
  t.a = f.a ∧ t.b = f.b ∧ t.x = f.x ∧ t.y = f.y ∧ t.sp = f.sp ∧ t.pc = f.pc ∧ t.progress = f.progress ∧
  t.flagS = f.flagS ∧ t.flagX = f.flagX ∧ t.flagI = f.flagI ∧
  (p ≠ .wav → t.flagV = f.flagV ∧ t.suspended = f.suspended) ∧
  (p = .revw → t.flagC = f.flagC) ∧ (p = .wav → t.flagZ = f.flagZ) ∧ ∀ a, a ∉ K → ramByte t a = ramByte f a

section
variable {wide : Bool} {K : List Word} {t f : State}

/-- Runs of REV or REVW from two states that agree with the interrupt point. -/
theorem endsAlike_runRule (hs : s.progress = ruleProgress wide) (ht : RuleAgree K s t) (hf : RuleAgree K s f)
    (hK : ∀ n, ∀ a ∈ passAddresses (ruleLoop (rulePass wide) n s), a ∉ K) (hbt : t.budget = none) (hbf : f.budget = none)
    (hb : t.b = f.b) (hsp : t.sp = f.sp) (hpc : t.pc = f.pc) (hccr : t.ccr = f.ccr) (hsus : t.suspended = f.suspended) :
    EndsAlike s.progress K (runRule wide t) (runRule wide f) := by
  have hrun (u : State) (hu : u.budget = none) : runRule wide u = endRule wide (ruleLoop (rulePass wide) 65536 u) := by
    rw [runRule, passLimit, hu, Option.getD_none]
  have gt := ht.ruleLoop hs hK 65536
  have gf := hf.ruleLoop hs hK 65536
  obtain ⟨et, kt⟩ := ruleFrame_ruleLoop (wide := wide) (ht.progress.trans hs) 65536
  obtain ⟨ef, kf⟩ := ruleFrame_ruleLoop (wide := wide) (hf.progress.trans hs) 65536
  rw [hrun t hbt, hrun f hbf]
  generalize ruleLoop (rulePass wide) 65536 t = p at *
  generalize ruleLoop (rulePass wide) 65536 f = q at *
  have bit (k : Nat) (h532 : k ∉ [5, 3, 2]) (h1 : k ≠ 1) (h0 : k ≠ 0) :
      (endRule wide p).ccr.getLsbD k = (endRule wide q).ccr.getLsbD k := by
    have ep : (endRule wide p).ccr.getLsbD k = _ := ruleFlags_getLsbD p h532 (.inr h0)
    have eq : (endRule wide q).ccr.getLsbD k = _ := ruleFlags_getLsbD q h532 (.inr h0)
    rw [ep, eq, kt k h1, kf k h1, hccr]
  have hpc' : (endRule wide p).pc = (endRule wide q).pc := by
    have ep : p.pc = q.pc := by rw [et, ef]; exact hpc
    rw [endRule, endRule, gt.progress, gf.progress, ep]
  have hv : (endRule wide p).flagV = (endRule wide q).flagV := by
    have ep : (endRule wide p).flagV = p.flagV := ruleFlags_getLsbD p (by decide) (.inr (by decide))
    have eq : (endRule wide q).flagV = q.flagV := ruleFlags_getLsbD q (by decide) (.inr (by decide))
    rw [ep, eq, gt.flagV, gf.flagV]
  have hc (hw : wide = true) : (endRule wide p).flagC = (endRule wide q).flagC := by
    have ep : (endRule wide p).flagC = p.flagC := ruleFlags_getLsbD p (by decide) (.inl hw)
    have eq : (endRule wide q).flagC = q.flagC := ruleFlags_getLsbD q (by decide) (.inl hw)
    rw [ep, eq, gt.flagC, gf.flagC]
  refine ⟨gt.a.trans gf.a.symm, ?_, gt.x.trans gf.x.symm, gt.y.trans gf.y.symm, ?_, hpc', gt.progress.trans gf.progress.symm,
    bit 7 (by decide) (by decide) (by decide), bit 6 (by decide) (by decide) (by decide),
    bit 4 (by decide) (by decide) (by decide), fun _ => ⟨hv, ?_⟩, fun hp => hc ?_, fun hp => ?_,
    fun a ha => (gt.ram.bytes ha).trans (gf.ram.bytes ha).symm⟩
  · change p.b = q.b
    rw [et, ef]
    exact hb
  · change p.sp = q.sp
    rw [et, ef]
    exact hsp
  · change p.suspended = q.suspended
    rw [et, ef]
    exact hsus
  · rw [hs] at hp
    cases wide with
    | true => rfl
    | false => cases hp
  · rw [hs] at hp
    cases wide <;> cases hp

/-- REV or REVW at its return address, after RTI. -/
theorem ruleAcrossInterrupt (hs : s.progress = ruleProgress wide) (hr : RamAgree K s h) (hb : s.budget = none)
    (hh : HandlerReturns s h) (hK : ∀ n, ∀ a ∈ passAddresses (ruleLoop (rulePass wide) n s), a ∉ K) :
    let u := returnFromException h
    u.pc = s.pc ∧ EndsAlike s.progress K (runRule wide (ruleStart wide { u with pc := u.pc + 2 }))
      (runRule wide { s with pc := s.pc + 2 }) := by
  obtain ⟨hsp, hbytes, hx, hbudget, hrecord⟩ := hh
  have hnw : s.progress ≠ .wav := by rw [hs]; cases wide <;> simp [ruleProgress]
  have hbytes' : interruptedBytes s = frameBytes s s.pc ++ [] := by rw [interruptedBytes, if_neg hnw]
  have hrti := returnFromException_of_ramHolds hr.right (hbytes' ▸ hbytes) hx
  have hsp9 : h.sp + 9 = s.sp := by
    rw [hsp, hbytes', List.append_nil]
    exact BitVec.sub_add_cancel s.sp 9
  rw [hsp9] at hrti
  have hown : resumesRecord (restored s h (s.pc + 2) s.sp)
      ⟨s.pc, s.a, s.x, s.y, s.flagV, s.sp, s.outputs, s.consumed⟩ = true := by
    simp [resumesRecord, restored, State.flagV]
  have hstart : ruleStart wide (restored s h (s.pc + 2) s.sp) = { restored s h (s.pc + 2) s.sp with
      outputs := s.outputs, consumed := s.consumed, suspended := s.suspended, progress := ruleProgress wide } := by
    rw [ruleStart, enterRules_of_head (s := restored s h (s.pc + 2) s.sp) (hrecord hnw) hown]
  have hpc : (restored s h s.pc s.sp).pc = s.pc := rfl
  simp only [hrti, hpc, true_and]
  refine hstart ▸ endsAlike_runRule hs ⟨?_, rfl, rfl, rfl, rfl, rfl, hs.symm, rfl, rfl⟩
    ⟨⟨hr.left, hr.left, fun _ _ => rfl⟩, rfl, rfl, rfl, rfl, rfl, rfl, rfl, rfl⟩ hK hbudget hb rfl rfl rfl rfl rfl
  exact ⟨hr.left, hr.right, hr.2.2⟩

end

/-! ## WAV and wavr -/

section
variable {K : List Word}

/-- The end of WAV leaves the results. -/
theorem endWav_results (u : State) : SameMemory u (endWav u) ∧ (endWav u).a = u.a ∧ (endWav u).b = u.b ∧
    (endWav u).x = u.x ∧ (endWav u).y = u.y := by
  unfold endWav
  split <;> exact ⟨⟨rfl, rfl, rfl, rfl, rfl, rfl⟩, rfl, rfl, rfl, rfl⟩

/-- What WAV keeps from where it starts or goes on, and how it ends. -/
theorem endWav_keeps {u : State} (h : u.progress = .wav) : let r := endWav (wavLoop 256 u)
    r.sp = u.sp ∧ r.pc = u.pc ∧ r.progress = .none ∧ r.flagS = u.flagS ∧ r.flagX = u.flagX ∧ r.flagI = u.flagI ∧
      r.flagZ = true := by
  obtain ⟨-, ⟨_, _, _, _, hS, hX, -, hI, -, hZ, -⟩, -, e⟩ :=
    wavDone_endWav (wavDone_wavLoop (n := 256) h rfl (BitVec.isLt _))
  have hsp : (endWav (wavLoop 256 u)).sp = u.sp := by rw [e]
  have hpc : (endWav (wavLoop 256 u)).pc = u.pc := by rw [e]
  have hp : (endWav (wavLoop 256 u)).progress = .none := by rw [e]
  exact ⟨hsp, hpc, hp, hS, hX, hI, hZ⟩

/-- WAV, in all its passes, from two states that agree with the interrupt point. -/
theorem endsAlike_endWav {t f : State} (hs : s.progress = .wav) (ht : WavAgree K s t) (hf : WavAgree K s f)
    (hK : ∀ n, ∀ a ∈ passAddresses (wavLoop n s), a ∉ K) (hsp : t.sp = f.sp) (hpc : t.pc = f.pc) (hccr : t.ccr = f.ccr) :
    EndsAlike s.progress K (endWav (wavLoop 256 t)) (endWav (wavLoop 256 f)) := by
  have gt := ht.wavLoop hs hK 256
  have gf := hf.wavLoop hs hK 256
  obtain ⟨spT, pcT, doneT, sT, xT, iT, zT⟩ := endWav_keeps (ht.progress.trans hs)
  obtain ⟨spF, pcF, doneF, sF, xF, iF, zF⟩ := endWav_keeps (hf.progress.trans hs)
  obtain ⟨mt, rat, rbt, rxt, ryt⟩ := endWav_results (wavLoop 256 t)
  obtain ⟨mf, raf, rbf, rxf, ryf⟩ := endWav_results (wavLoop 256 f)
  have bit (k : Nat) : t.ccr.getLsbD k = f.ccr.getLsbD k := by rw [hccr]
  refine ⟨by rw [rat, raf, gt.a, gf.a], by rw [rbt, rbf, gt.b, gf.b], by rw [rxt, rxf, gt.x, gf.x],
    by rw [ryt, ryf, gt.y, gf.y], by rw [spT, spF, hsp], by rw [pcT, pcF, hpc], by rw [doneT, doneF],
    (sT.trans (bit 7)).trans sF.symm, (xT.trans (bit 6)).trans xF.symm, (iT.trans (bit 4)).trans iF.symm,
    fun hne => absurd hs hne, fun hp => ?_, fun _ => zT.trans zF.symm, fun a ha => ?_⟩
  · rw [hs] at hp
    cases hp
  · rw [ramByte_of_sameMemory mt, ramByte_of_sameMemory mf, gt.ram.bytes ha, gf.ram.bytes ha]

/-- wavr at the return address of WAV, after RTI. -/
theorem wavAcrossInterrupt (hs : s.progress = .wav) (hr : RamAgree K s h) (hb : s.budget = none)
    (hh : HandlerReturns s h) (hK : ∀ n, ∀ a ∈ passAddresses (wavLoop n s), a ∉ K) :
    let u := returnFromException h
    u.pc = s.pc ∧ EndsAlike s.progress K (endWav (wavLoop 256 (wavrStart { u with pc := u.pc + 1 })))
      (runWav { s with pc := s.pc + 1 }) := by
  obtain ⟨hsp, hbytes, hx, hbudget, -⟩ := hh
  have hbytes' : interruptedBytes s = frameBytes s s.pc ++ bytesOfWords [s.tmp1, s.tmp2, s.tmp3] := by
    rw [interruptedBytes, if_pos hs]
  rw [hbytes'] at hsp hbytes
  have hrti := returnFromException_of_ramHolds hr.right hbytes hx
  have hsp9 : h.sp + 9 = s.sp - 6 := by
    rw [hsp]
    change s.sp - 15#16 + 9 = s.sp - 6
    bv_omega
  have hram : AllRam (restored s h (s.pc + 1) (s.sp - 6)) := hr.right
  have hstack : RamHolds (restored s h (s.pc + 1) (s.sp - 6)) h.sp
      (frameBytes s s.pc ++ bytesOfWords [s.tmp1, s.tmp2, s.tmp3]) := hbytes
  have e2 : s.sp - 6 + 2 = h.sp + 11 := by rw [← hsp9, BitVec.add_assoc]; rfl
  have e4 : s.sp - 6 + 4 = h.sp + 13 := by rw [← hsp9, BitVec.add_assoc]; rfl
  have h1 : read16 (restored s h (s.pc + 1) (s.sp - 6)) .stack (s.sp - 6) = s.tmp1 :=
    (congrArg (read16 _ .stack) hsp9.symm).trans
      (read16_of_ramHolds hram hstack .stack 9 (by simp [frameBytes, bytesOfWords]) ⟨rfl, rfl⟩)
  have h2 : read16 (restored s h (s.pc + 1) (s.sp - 6)) .stack2 (s.sp - 6 + 2) = s.tmp2 := by
    rw [e2]
    exact read16_of_ramHolds hram hstack .stack2 11 (by simp [frameBytes, bytesOfWords]) ⟨rfl, rfl⟩
  have h3 : read16 (restored s h (s.pc + 1) (s.sp - 6)) .stack3 (s.sp - 6 + 4) = s.tmp3 := by
    rw [e4]
    exact read16_of_ramHolds hram hstack .stack3 13 (by simp [frameBytes, bytesOfWords]) ⟨rfl, rfl⟩
  have hstart : wavrStart (restored s h (s.pc + 1) (s.sp - 6)) = { restored s h (s.pc + 1) s.sp with
      tmp1 := s.tmp1, tmp2 := s.tmp2, tmp3 := s.tmp3, progress := .wav } := by
    have hsp6 : s.sp - 6 + 6 = s.sp := BitVec.sub_add_cancel s.sp 6
    rw [← h1, ← h2, ← h3]
    exact congrArg (fun p => State.setSp { restored s h (s.pc + 1) (s.sp - 6) with
      tmp1 := _, tmp2 := _, tmp3 := _, progress := .wav } p) hsp6
  have hpc : (restored s h s.pc (s.sp - 6)).pc = s.pc := rfl
  rw [hsp9] at hrti
  simp only [hrti, hpc, true_and]
  change EndsAlike _ _ (endWav (wavLoop 256 (wavrStart (restored s h (s.pc + 1) (s.sp - 6))))) _
  rw [hstart, runWav, wavLimit_of_none (s := { s with pc := s.pc + 1 }) hb]
  refine endsAlike_endWav hs ⟨?_, rfl, rfl, rfl, rfl, rfl, rfl, rfl, hs.symm⟩
    ⟨⟨hr.left, hr.left, fun _ _ => rfl⟩, rfl, rfl, rfl, rfl, rfl, rfl, rfl, rfl⟩ hK rfl rfl rfl
  exact ⟨hr.left, hr.right, hr.2.2⟩

end

end

/-! ## The statement -/

/-- The instruction in progress is REV, REVW or WAV. -/
theorem progress_cases {p : Progress} (h : p ≠ .none) : (∃ wide, p = ruleProgress wide) ∨ p = .wav := by
  cases p with
  | rev => exact .inl ⟨false, rfl⟩
  | revw => exact .inl ⟨true, rfl⟩
  | wav => exact .inr rfl
  | none => exact absurd rfl h

section
variable {wide : Bool} {s : State}

theorem afterPasses_rule (h : s.progress = ruleProgress wide) (n : Nat) :
    afterPasses n s = ruleLoop (rulePass wide) n s := by
  cases wide with
  | false => rw [afterPasses, h, ← revPass_eq]; rfl
  | true => rw [afterPasses, h, ← revwPass_eq]; rfl

theorem resume_rule (h : s.progress = ruleProgress wide) : resume s = runRule wide s := by
  cases wide with
  | false => rw [resume, h, ← runRev_eq]; rfl
  | true => rw [resume, h, ← runRevw_eq]; rfl

theorem resume_wav (h : s.progress = .wav) : resume s = runWav s := by rw [resume, h]

theorem exec_reentry_rule (wide : Bool) (s : State) :
    exec (reentry (ruleProgress wide)) s = .next (runRule wide (ruleStart wide s)) := by
  cases wide with
  | false => exact exec_rev_eq s
  | true => exact exec_revw_eq s

end

/-- The fourth part of the statement. -/
theorem resumesAcrossInterrupt {s h : State} {K : List Word} (hr : RamAgree K s h) (hp : s.progress ≠ .none)
    (hb : s.budget = none) (hh : HandlerReturns s h) (hK : ∀ n, ∀ a ∈ passAddresses (afterPasses n s), a ∉ K) :
    let u := returnFromException h
    u.pc = s.pc ∧ Completes (exec (reentry s.progress) { u with pc := u.pc + resumeLength s.progress }) fun t =>
      EndsAlike s.progress K t (resume { s with pc := s.pc + resumeLength s.progress }) := by
  rcases progress_cases hp with ⟨wide, hs⟩ | hs
  · simp only [afterPasses_rule hs] at hK
    obtain ⟨hpc, hends⟩ := ruleAcrossInterrupt hs hr hb hh hK
    have hlen : resumeLength s.progress = 2 := by rw [hs]; cases wide <;> rfl
    have hresume : resume { s with pc := s.pc + 2 } = _ := resume_rule (s := { s with pc := s.pc + 2 }) hs
    refine ⟨hpc, _, (congrArg (exec · _) (congrArg reentry hs)).trans (exec_reentry_rule wide _), ?_⟩
    rw [hlen, hresume]
    exact hends
  · have hK' (n : Nat) : ∀ a ∈ passAddresses (wavLoop n s), a ∉ K := by
      have e : afterPasses n s = wavLoop n s := by rw [afterPasses, hs]
      rw [← e]
      exact hK n
    obtain ⟨hpc, hends⟩ := wavAcrossInterrupt hs hr hb hh hK'
    have hlen : resumeLength s.progress = 1 := by rw [hs]; rfl
    have hresume : resume { s with pc := s.pc + 1 } = _ := resume_wav (s := { s with pc := s.pc + 1 }) hs
    have hbudget : (returnFromException h).budget = none := by
      obtain ⟨-, -, -, hbudget, -⟩ := hh
      exact hbudget
    refine ⟨hpc, _, (congrArg (exec · _) (congrArg reentry hs)).trans (exec_wavr_eq (by exact hbudget)), ?_⟩
    rw [hlen, hresume]
    exact hends

/-- Settles O43: the parts for REV and REVW, for WAV, and across an interrupt. -/
theorem stoppedRuleEvaluationResumesTransparently : Obligations.StoppedRuleEvaluationResumesTransparently := by
  unfold Obligations.StoppedRuleEvaluationResumesTransparently
  refine ⟨?_, ?_, ?_, ?_⟩
  · intro s t u n hb ht hstop hu hdone
    rw [exec_rev_eq, Host.Outcome.next.injEq] at ht hu
    subst ht hu
    rw [runRev_eq]
    exact stoppedRuleResumed false hb n hstop hdone
  · intro s t u n hb ht hstop hu hdone
    rw [exec_revw_eq, Host.Outcome.next.injEq] at ht hu
    subst ht hu
    rw [runRevw_eq]
    exact stoppedRuleResumed true hb n hstop hdone
  · intro s t u n hb ht hstop
    have hwav : exec .wav { s with budget := some n } = .next (runWav { wavStart s with budget := some n }) := rfl
    rw [hwav, Host.Outcome.next.injEq] at ht
    subst ht
    obtain ⟨hpc, hrun⟩ := runWav_resumed (s := wavStart s) rfl hb n hstop
    refine ⟨hpc, fun hu => ?_⟩
    rw [exec_wav_eq hb, Host.Outcome.next.injEq] at hu
    exact hrun.trans hu
  · intro s h K hs hr hp hb hh hbytes hK
    obtain ⟨hpc, hresumed⟩ := resumesAcrossInterrupt ⟨hs, hr, hbytes⟩ hp hb hh hK
    exact ⟨_, rfl, hpc, hresumed⟩

end Sys2Proof.Machine
end

section
/-! PROOF. Branches (46_branch.md R460 to R511): every one is `branchIf` of a condition and an offset, after the update
of the operand or the counter that is tested. The conditions are those of R461's table, after a compare the relation of
its operands (41_arith.md R223), the bits of a mask, or a counter that is zero. -/

namespace Sys2Proof.Machine

/-! ## The target (R460) -/

/-- What a branch does, the offset added in integers. -/
theorem branchIf_sext16 {w : Nat} (cond : Bool) (rel : BitVec w) (s : State) :
    branchIf cond (sext16 rel) s =
      if cond then { s with pc := BitVec.ofInt 16 (s.pc.toNat + rel.toInt), stale := [] } else s := by
  rw [branchIf, jump, add_sext16]

/-- An offset of 16 bits is added as it is (R481). -/
theorem sext16_word (rel : Word) : sext16 rel = rel := BitVec.signExtend_eq rel

/-! ## Conditions (R461) -/

theorem condHi_eq (s : State) : condHi s = (!s.flagC && !s.flagZ) := Bool.not_or _ _
theorem not_condHi_eq (s : State) : (!condHi s) = (s.flagC || s.flagZ) := Bool.not_not _
theorem not_condCc_eq (s : State) : (!condCc s) = s.flagC := Bool.not_not _
theorem condGe_eq (s : State) : condGe s = (s.flagN == s.flagV) := Bool.not_not _
theorem not_condGe_eq (s : State) : (!condGe s) = (s.flagN != s.flagV) := Bool.not_not _
theorem condGt_eq (s : State) : condGt s = (!s.flagZ && s.flagN == s.flagV) := by
  rw [condGt, Bool.not_or, bne, Bool.not_not]
theorem not_condGt_eq (s : State) : (!condGt s) = (s.flagZ || s.flagN != s.flagV) := Bool.not_not _

/-! ## Short and long branches (R462, R481) -/

/-- A short and a long branch, each taken from `s` if `cond` holds. -/
def BranchOn (s : State) (cond : Bool) (short : Byte → Instr) (long : Word → Instr) : Prop :=
  (∀ rel, exec (short rel) s = .next (branchIf cond (sext16 rel) s)) ∧
  (∀ rel, exec (long rel) s = .next (branchIf cond rel s))

/-- The model's meaning of a pair, its condition written as in the table. -/
theorem branchOn_of_exec {s : State} {cond model : Bool} {short : Byte → Instr} {long : Word → Instr}
    (hcond : model = cond) (hshort : ∀ rel, exec (short rel) s = .next (branchIf model (sext16 rel) s))
    (hlong : ∀ rel, exec (long rel) s = .next (branchIf model rel s)) : BranchOn s cond short long := by
  subst hcond
  exact ⟨hshort, hlong⟩

theorem branchOn_always (s : State) : BranchOn s true .bra .lbra := ⟨fun _ => rfl, fun _ => rfl⟩
theorem branchOn_never (s : State) : BranchOn s false .brn .lbrn := ⟨fun _ => rfl, fun _ => rfl⟩
theorem branchOn_cc (s : State) : BranchOn s (!s.flagC) .bcc .lbcc := ⟨fun _ => rfl, fun _ => rfl⟩
theorem branchOn_hs (s : State) : BranchOn s (!s.flagC) .bhs .lbhs := ⟨fun _ => rfl, fun _ => rfl⟩
theorem branchOn_cs (s : State) : BranchOn s s.flagC .bcs .lbcs :=
  branchOn_of_exec (not_condCc_eq s) (fun _ => rfl) fun _ => rfl
theorem branchOn_lo (s : State) : BranchOn s s.flagC .blo .lblo :=
  branchOn_of_exec (not_condCc_eq s) (fun _ => rfl) fun _ => rfl
theorem branchOn_eq (s : State) : BranchOn s s.flagZ .beq .lbeq := ⟨fun _ => rfl, fun _ => rfl⟩
theorem branchOn_ne (s : State) : BranchOn s (!s.flagZ) .bne .lbne := ⟨fun _ => rfl, fun _ => rfl⟩
theorem branchOn_mi (s : State) : BranchOn s s.flagN .bmi .lbmi := ⟨fun _ => rfl, fun _ => rfl⟩
theorem branchOn_pl (s : State) : BranchOn s (!s.flagN) .bpl .lbpl := ⟨fun _ => rfl, fun _ => rfl⟩
theorem branchOn_vs (s : State) : BranchOn s s.flagV .bvs .lbvs := ⟨fun _ => rfl, fun _ => rfl⟩
theorem branchOn_vc (s : State) : BranchOn s (!s.flagV) .bvc .lbvc := ⟨fun _ => rfl, fun _ => rfl⟩
theorem branchOn_hi (s : State) : BranchOn s (!s.flagC && !s.flagZ) .bhi .lbhi :=
  branchOn_of_exec (condHi_eq s) (fun _ => rfl) fun _ => rfl
theorem branchOn_ls (s : State) : BranchOn s (s.flagC || s.flagZ) .bls .lbls :=
  branchOn_of_exec (not_condHi_eq s) (fun _ => rfl) fun _ => rfl
theorem branchOn_ge (s : State) : BranchOn s (s.flagN == s.flagV) .bge .lbge :=
  branchOn_of_exec (condGe_eq s) (fun _ => rfl) fun _ => rfl
theorem branchOn_lt (s : State) : BranchOn s (s.flagN != s.flagV) .blt .lblt :=
  branchOn_of_exec (not_condGe_eq s) (fun _ => rfl) fun _ => rfl
theorem branchOn_gt (s : State) : BranchOn s (!s.flagZ && s.flagN == s.flagV) .bgt .lbgt :=
  branchOn_of_exec (condGt_eq s) (fun _ => rfl) fun _ => rfl
theorem branchOn_le (s : State) : BranchOn s (s.flagZ || s.flagN != s.flagV) .ble .lble :=
  branchOn_of_exec (not_condGt_eq s) (fun _ => rfl) fun _ => rfl

/-- The next state of both branches, the offset added in integers. -/
theorem BranchOn.exec_eq {s : State} {cond : Bool} {short : Byte → Instr} {long : Word → Instr}
    (h : BranchOn s cond short long) :
    (∀ rel : Byte, exec (short rel) s =
      .next (if cond then { s with pc := BitVec.ofInt 16 (s.pc.toNat + rel.toInt), stale := [] } else s)) ∧
    (∀ rel : Word, exec (long rel) s =
      .next (if cond then { s with pc := BitVec.ofInt 16 (s.pc.toNat + rel.toInt), stale := [] } else s)) := by
  obtain ⟨hshort, hlong⟩ := h
  refine ⟨fun rel => ?_, fun rel => ?_⟩
  · rw [hshort, branchIf_sext16]
  · rw [hlong, ← branchIf_sext16, sext16_word]

/-- Settles O47: each row of the table is the pair of branches on its condition. -/
theorem branchesFollowTheConditionTable : Obligations.BranchesFollowTheConditionTable := by
  unfold Obligations.BranchesFollowTheConditionTable
  intro s cond short long hrow
  refine ((List.forall_iff_forall_mem (p := fun row => BranchOn s row.1 row.2.1 row.2.2)).mp ?_ _ hrow).exec_eq
  exact ⟨branchOn_always s, branchOn_never s, branchOn_cc s, branchOn_cs s, branchOn_hs s, branchOn_lo s, branchOn_eq s,
    branchOn_ne s, branchOn_mi s, branchOn_pl s, branchOn_vs s, branchOn_vc s, branchOn_hi s, branchOn_ls s,
    branchOn_ge s, branchOn_lt s, branchOn_gt s, branchOn_le s⟩

/-! ## After a compare (R461) -/

/-- A difference without a wrap, or with one. -/
theorem IsDiff.cases {w : Nat} {a m r : BitVec w} (h : IsDiff a m false r) :
    m.toNat ≤ a.toNat ∧ r.toNat + m.toNat = a.toNat ∨ a.toNat < m.toNat ∧ r.toNat + m.toNat = a.toNat + 2 ^ w := by
  have hp : (2 : Int) ^ w = ((2 ^ w : Nat) : Int) := by simp
  rw [IsDiff, wideDiff, hp, Bool.toNat_false] at h
  have ha := a.isLt
  have hm := m.isLt
  by_cases hle : m.toNat ≤ a.toNat
  · rw [Int.emod_eq_of_lt (by omega) (by omega)] at h
    exact .inl ⟨hle, by omega⟩
  · rw [← Int.add_emod_right, Int.emod_eq_of_lt (by omega) (by omega)] at h
    exact .inr ⟨by omega, by omega⟩

/-- The flags of a compare say how its operands are related: Z that they are equal, C that the first is below the
second unsigned, N ⊕ V that it is below signed. -/
theorem DiffFlags.relations {w : Nat} (hw : 0 < w) {s t : State} {a m r : BitVec w} (hr : IsDiff a m false r)
    (h : DiffFlags s t a m false r) :
    (t.flagZ = true ↔ a = m) ∧ (t.flagC = true ↔ a.toNat < m.toNat) ∧
      ((t.flagN != t.flagV) = true ↔ a.toInt < m.toInt) := by
  obtain ⟨n, rfl⟩ : ∃ n, w = n + 1 := ⟨w - 1, by omega⟩
  obtain ⟨-, -, -, -, hn, hz, hv, hc⟩ := h
  have ha := toInt_cases a
  have hm := toInt_cases m
  have hr' := r.isLt
  have hp : (2 : Int) ^ n = ((2 ^ n : Nat) : Int) := by simp
  have hdiff := hr.cases
  rw [hn, hz, hv, hc, zero, negative, outOfRange, signedDiff, wideDiff, Nat.add_sub_cancel, hp, Bool.toNat_false]
  rw [pow_succ] at *
  refine ⟨decide_eq_true_iff.trans ?_, decide_eq_true_iff.trans ?_, ?_⟩
  · rw [← BitVec.toNat_inj]
    omega
  · omega
  · rw [bne_iff_ne, Ne, decide_eq_decide]
    omega

/-- The complement of a condition decides the complement of what the condition decides. -/
theorem not_decides {cond : Bool} {p q : Prop} (h : cond = true ↔ p) (hq : ¬ p ↔ q) : (!cond) = true ↔ q := by
  rw [Bool.not_eq_true', ← Bool.not_eq_true, h, hq]

/-- A branch whose condition decides `p` is taken if `p` holds, and only then. -/
theorem BranchOn.decides {t : State} {cond : Bool} {short : Byte → Instr} {long : Word → Instr}
    (h : BranchOn t cond short long) {p : Prop} (hp : cond = true ↔ p) (rel : Byte) :
    (p → exec (short rel) t = .next (jump t (t.pc + rel.signExtend 16))) ∧ (¬ p → exec (short rel) t = .next t) := by
  obtain ⟨hshort, -⟩ := h
  rw [hshort, branchIf, ← hp]
  exact ⟨fun hc => congrArg _ (if_pos hc), fun hc => congrArg _ (if_neg hc)⟩

/-- Settles O48: the flags of the difference, by O28, put into the condition of each branch. -/
theorem branchesAfterACompareDecideTheRelation : Obligations.BranchesAfterACompareDecideTheRelation := by
  unfold Obligations.BranchesAfterACompareDecideTheRelation
  intro s o rel
  obtain ⟨compareA, -⟩ := comparesSetTheFlagsOfTheDifference
  obtain ⟨t, ht, hflags, -⟩ := compareA s o
  have hdiff : IsDiff s.a (src8 s o) false _ := isDiff_subb (by decide) _ _ _
  obtain ⟨hz, hc, hnv⟩ := (hflags _ hdiff).relations (by decide) hdiff
  have hls : (t.flagC || t.flagZ) = true ↔ s.a.toNat ≤ (src8 s o).toNat := by
    rw [Bool.or_eq_true, hc, hz, ← BitVec.toNat_inj, Nat.le_iff_lt_or_eq]
  have hle : (t.flagZ || t.flagN != t.flagV) = true ↔ s.a.toInt ≤ (src8 s o).toInt := by
    rw [Bool.or_eq_true, hz, hnv, ← BitVec.toInt_inj, or_comm, Int.le_iff_lt_or_eq]
  have hhi : condHi t = true ↔ (src8 s o).toNat < s.a.toNat := not_decides hls Nat.not_le
  have hgt : condGt t = true ↔ (src8 s o).toInt < s.a.toInt := not_decides hle Int.not_le
  have hge : condGe t = true ↔ (src8 s o).toInt ≤ s.a.toInt := not_decides hnv Int.not_lt
  exact ⟨t, ht, (branchOn_hi t).decides (condHi_eq t ▸ hhi) rel,
    (branchOn_hs t).decides (not_decides hc Nat.not_lt) rel,
    (branchOn_ls t).decides hls rel, (branchOn_lo t).decides hc rel,
    (branchOn_gt t).decides (condGt_eq t ▸ hgt) rel, (branchOn_ge t).decides (condGe_eq t ▸ hge) rel,
    (branchOn_le t).decides hle rel, (branchOn_lt t).decides hnv rel,
    (branchOn_eq t).decides hz rel, (branchOn_ne t).decides (not_decides hz Iff.rfl) rel⟩

/-! ## Bit-condition branches (R500 to R502) -/

/-- No bit of the mask is 1 in the byte. -/
theorem and_mask_eq_zero_iff {v mask : Byte} :
    (v &&& mask == 0) = true ↔ ∀ k, mask.getLsbD k = true → v.getLsbD k = false := by
  rw [beq_iff_eq]
  refine ⟨fun h k hk => ?_, fun h => BitVec.eq_of_getLsbD_eq fun k _ => ?_⟩
  · have hbit : (v &&& mask).getLsbD k = false := by rw [h]; exact BitVec.getLsbD_zero
    rwa [BitVec.getLsbD_and, hk, Bool.and_true] at hbit
  · have hbit : (v.getLsbD k && mask.getLsbD k) = false := by
      cases hk : mask.getLsbD k
      · exact Bool.and_false _
      · rw [h k hk, Bool.false_and]
    rw [BitVec.getLsbD_and, hbit]
    exact BitVec.getLsbD_zero.symm

/-- Every bit of the mask is 1 in the byte. -/
theorem not_and_mask_eq_zero_iff {v mask : Byte} :
    (~~~v &&& mask == 0) = true ↔ ∀ k, mask.getLsbD k = true → v.getLsbD k = true := by
  rw [and_mask_eq_zero_iff]
  refine forall₂_congr fun k hk => ?_
  have hlt : k < 8 := BitVec.lt_of_getLsbD hk
  simp [hlt]

/-- A bit-condition branch on a condition that decides `p`: the addressing mode leaves the PC as it is. -/
theorem bitBranch_decides {s : State} {m : BitEa} {cond : Bool} {i : Instr} {rel : Byte}
    (h : exec i s = .next (branchIf cond (sext16 rel) (bitUpdate s m))) {p : Prop} (hp : cond = true ↔ p) :
    (p → exec i s = .next { bitUpdate s m with pc := BitVec.ofInt 16 (s.pc.toNat + rel.toInt), stale := [] }) ∧
    (¬ p → exec i s = .next (bitUpdate s m)) := by
  obtain ⟨-, -, hpc, -⟩ := (onlyIndexes_bitUpdate s m).fields
  rw [h, branchIf_sext16, hpc, ← hp]
  exact ⟨fun hc => congrArg _ (if_pos hc), fun hc => congrArg _ (if_neg hc)⟩

/-- Settles O49: BRSET tests the complement of the byte, BRCLR the byte, against the mask. -/
theorem bitConditionBranchesTestTheMaskedBits : Obligations.BitConditionBranchesTestTheMaskedBits := by
  unfold Obligations.BitConditionBranchesTestTheMaskedBits
  intro s m mask rel
  obtain ⟨hset, hnotSet⟩ := bitBranch_decides (i := .brset m mask rel) rfl not_and_mask_eq_zero_iff
  obtain ⟨hclear, hnotClear⟩ := bitBranch_decides (i := .brclr m mask rel) rfl and_mask_eq_zero_iff
  refine ⟨hset, fun ⟨k, hk, hv⟩ => hnotSet fun h => ?_, hclear, fun ⟨k, hk, hv⟩ => hnotClear fun h => ?_⟩
  · exact Bool.false_ne_true (hv.symm.trans (h k hk))
  · exact Bool.false_ne_true ((h k hk).symm.trans hv)

/-! ## Loop primitives (R505 to R511) -/

/-- A counter with `step` added, modulo its width. -/
def countBy (step : Int) (s : State) : LoopReg → State
  | .a => s.setA (BitVec.ofInt 8 (s.a.toNat + step))
  | .b => s.setB (BitVec.ofInt 8 (s.b.toNat + step))
  | .d => s.setD (BitVec.ofInt 16 (s.d.toNat + step))
  | .x => s.setX (BitVec.ofInt 16 (s.x.toNat + step))
  | .y => s.setY (BitVec.ofInt 16 (s.y.toNat + step))
  | .sp => s.setSp (BitVec.ofInt 16 (s.sp.toNat + step))

/-- A step added in integers. -/
theorem ofInt_toNat_add {w : Nat} (v : BitVec w) (step : Int) :
    BitVec.ofInt w (v.toNat + step) = v + BitVec.ofInt w step := by
  rw [BitVec.ofInt_add, BitVec.ofInt_natCast, BitVec.ofNat_toNat, BitVec.setWidth_eq]

theorem incCounter_eq (s : State) (r : LoopReg) : incCounter s r = countBy 1 s r := by
  cases r <;> simp only [countBy, ofInt_toNat_add] <;> rfl

theorem decCounter_eq (s : State) (r : LoopReg) : decCounter s r = countBy (-1) s r := by
  cases r <;> simp only [countBy, ofInt_toNat_add, decCounter, BitVec.sub_eq_add_neg] <;> rfl

theorem setD_d (s : State) : s.setD s.d = s := by
  rw [State.setD, State.d, hiByte_joinBytes, loByte_joinBytes]

theorem countBy_zero (s : State) (r : LoopReg) : countBy 0 s r = s := by
  cases r <;> simp only [countBy, Int.add_zero, BitVec.ofInt_natCast, BitVec.ofNat_toNat, BitVec.setWidth_eq]
  case d => exact setD_d s
  all_goals rfl

theorem countBy_pc (step : Int) (s : State) (r : LoopReg) : (countBy step s r).pc = s.pc := by cases r <;> rfl

/-- Counted in D, the two accumulators as one number (R505). -/
theorem countBy_d_toNat (step : Int) (s : State) :
    ((countBy step s .d).a.toNat * 256 + (countBy step s .d).b.toNat : Int) =
      (s.a.toNat * 256 + s.b.toNat + step) % 65536 := by
  have hd : (countBy step s .d).d = BitVec.ofInt 16 (s.d.toNat + step) := joinBytes_hiByte_loByte _
  have hnat := toNat_d (countBy step s .d)
  have hint : ((countBy step s .d).d.toNat : Int) = (s.d.toNat + step) % 65536 := by
    rw [hd, BitVec.toNat_ofInt]
    omega
  rw [toNat_d s] at hint
  omega

theorem beq_zero_iff {w : Nat} (v : BitVec w) : (v == 0) = true ↔ v.toNat = 0 := by
  rw [beq_iff_eq, ← BitVec.toNat_inj]
  rfl

/-- D is zero where both accumulators are. -/
theorem d_beq_zero_iff (s : State) : (s.d == 0) = true ↔ s.a.toNat = 0 ∧ s.b.toNat = 0 := by
  rw [beq_zero_iff, toNat_d]
  omega

/-- A pair of loop primitives: `step` is added to the counter, then one branches if it is zero and one if it is not. -/
def LoopOn (s : State) (step : Int) (onZero onNonzero : LoopReg → BitVec 9 → Instr) : Prop :=
  ∀ r rel, exec (onZero r rel) s = .next (branchIfZero r rel (countBy step s r)) ∧
    exec (onNonzero r rel) s = .next (branchIfNonzero r rel (countBy step s r))

theorem loopOn_decrement (s : State) : LoopOn s (-1) .dbeq .dbne := fun r rel => by
  rw [← decCounter_eq]
  exact ⟨rfl, rfl⟩

theorem loopOn_increment (s : State) : LoopOn s 1 .ibeq .ibne := fun r rel => by
  rw [← incCounter_eq]
  exact ⟨rfl, rfl⟩

theorem loopOn_test (s : State) : LoopOn s 0 .tbeq .tbne := fun r rel => by
  rw [countBy_zero]
  exact ⟨rfl, rfl⟩

/-- Both primitives where the test of the counter decides `p`. -/
theorem LoopOn.decides {s : State} {step : Int} {onZero onNonzero : LoopReg → BitVec 9 → Instr}
    (h : LoopOn s step onZero onNonzero) {r : LoopReg} {p : Prop}
    (hp : counterIsZero (countBy step s r) r = true ↔ p) (rel : BitVec 9) :
    let counted := countBy step s r
    let taken : State := { counted with pc := BitVec.ofInt 16 (s.pc.toNat + rel.toInt), stale := [] }
    (p → exec (onZero r rel) s = .next taken ∧ exec (onNonzero r rel) s = .next counted) ∧
    (¬ p → exec (onZero r rel) s = .next counted ∧ exec (onNonzero r rel) s = .next taken) := by
  obtain ⟨hzero, hnonzero⟩ := h r rel
  rw [hzero, hnonzero, branchIfZero, branchIfNonzero, branchIf_sext16, branchIf_sext16, countBy_pc, ← hp]
  refine ⟨fun hc => ?_, fun hc => ?_⟩
  · rw [hc]
    exact ⟨rfl, rfl⟩
  · rw [Bool.not_eq_true] at hc
    rw [hc]
    exact ⟨rfl, rfl⟩

/-- Settles O50: each row is its pair of primitives; the counter is one of six registers. -/
theorem loopPrimitivesCountAndBranch : Obligations.LoopPrimitivesCountAndBranch := by
  unfold Obligations.LoopPrimitivesCountAndBranch
  intro s r rel step onZero onNonzero hrow
  have hloop : LoopOn s step onZero onNonzero := by
    refine (List.forall_iff_forall_mem (p := fun row => LoopOn s row.1 row.2.1 row.2.2)).mp ?_ _ hrow
    exact ⟨loopOn_decrement s, loopOn_test s, loopOn_increment s⟩
  refine ⟨countBy step s r, ?_, hloop.decides ?_ rel⟩
  · cases r
    case d => exact ⟨rfl, countBy_d_toNat step s⟩
    all_goals rfl
  · cases r
    case d => exact d_beq_zero_iff _
    all_goals exact beq_zero_iff _

end Sys2Proof.Machine
end

section
/-! PROOF. The X mask (60_exceptions.md R665): with XIRQ negated and no reset, nothing that a step is made of sets X. -/

namespace Sys2Proof.Machine

/-! ## What keeps X clear and XIRQ negated -/

/-- The pins are those of `s`, and X is not set. -/
def MaskKept (s t : State) : Prop := t.pins = s.pins ∧ (t.ccr.getLsbD 6 = true → s.ccr.getLsbD 6 = true)

/-- X is 0 and XIRQ is not asserted. -/
def XirqQuiet (s : State) : Prop := s.flagX = false ∧ s.pins.xirq = false

theorem MaskKept.of_steady {s t : State} (h : Steady s t) (hp : t.pins = s.pins) : MaskKept s t := ⟨hp, h.xKept⟩

/-- X that is not set where it was 0. -/
theorem flagX_of_kept {s t : State} (h : t.ccr.getLsbD 6 = true → s.ccr.getLsbD 6 = true) (hs : s.flagX = false) :
    t.flagX = false := by
  rw [State.flagX] at hs
  rw [State.flagX, ← Bool.not_eq_true]
  exact fun ht => Bool.false_ne_true (hs.symm.trans (h ht))

theorem MaskKept.flagX {s t : State} (h : MaskKept s t) (hs : s.flagX = false) : t.flagX = false :=
  flagX_of_kept h.2 hs

theorem MaskKept.quiet {s t : State} (h : MaskKept s t) (hs : XirqQuiet s) : XirqQuiet t := by
  obtain ⟨hx, hq⟩ := hs
  refine ⟨h.flagX hx, ?_⟩
  obtain ⟨hp, -⟩ := h
  rw [hp, hq]

theorem OnlyStores.pins_eq {s t : State} (h : OnlyStores s t) : t.pins = s.pins := by
  rw [OnlyStores] at h
  rw [h]

theorem OnlyStores.flagX_eq {s t : State} (h : OnlyStores s t) : t.flagX = s.flagX := by
  rw [OnlyStores] at h
  rw [h]
  rfl

/-! ## BDM commands -/

@[simp] theorem writeMapTarget_pins (s : State) (g : MapTarget) (v : Byte) : (writeMapTarget s g v).pins = s.pins :=
  (writeMapTarget_eq s g v).pins_eq
@[simp] theorem write8InMap_pins (s : State) (a : Word) (v : Byte) : (write8InMap s a v).pins = s.pins :=
  writeMapTarget_pins s _ v
@[simp] theorem write16InMap_pins (s : State) (a v : Word) : (write16InMap s a v).pins = s.pins := by
  simp [write16InMap]
@[simp] theorem bdmLatch_pins (s : State) (op : Byte) (addr : Word) : (bdmLatch s op addr).pins = s.pins := rfl
@[simp] theorem writeNext_pins (s : State) (data : Word) : (writeNext s data).pins = s.pins := by simp [writeNext]
@[simp] theorem requestBdm_pins (s : State) : (requestBdm s).pins = s.pins := by
  unfold requestBdm
  split <;> rfl

/-- GO, TRACE1 and TAGGO load the CCR under the X-bit rule. -/
theorem leaveBdm_maskKept (s : State) (b : Bdm) : MaskKept s (leaveBdm { s with bdm := b }) :=
  ⟨rfl, (steady_loadCcr (.refl s) b.ccr).xKept⟩

theorem firmwareCommand_maskKept (s : State) (op : Byte) (data : Word) :
    Leaves (MaskKept s) (firmwareCommand s op data) := by
  have go (b : Bdm) : Leaves (MaskKept s) (.ok (leaveBdm { s with bdm := b })) := leaves_ok (leaveBdm_maskKept s b)
  have steady {t : State} (h : Steady s t) (hp : t.pins = s.pins) : Leaves (MaskKept s) (.ok t) :=
    leaves_ok (.of_steady h hp)
  have setTmp2 : Steady s { setShift s data with tmp2 := data } := (steady_setShift data).2 (.refl s)
  exact .ite (go _) <| .ite (go _) <| .ite (go _) <|
    .ite (steady (by simp) (by simp)) <| .ite (steady setTmp2 rfl) <|
    .ite (steady (by simp) rfl) <| .ite (steady (by simp) rfl) <|
    .ite (steady (by simp) rfl) <| .ite (steady (by simp) rfl) <|
    .ite (steady (by simp) rfl) <| .ite (steady (by simp) rfl) <|
    .ite (steady (by simp) rfl) <| .ite (steady (by simp) rfl) <|
    .ite (steady (by simp) rfl) <| .ite (steady (by simp) rfl) <| leaves_error _ _

theorem runCommand_maskKept (s : State) (op : Byte) (addr data : Word) :
    Leaves (MaskKept s) (runCommand s op addr data) := by
  have hardware {t : State} (h : Steady s t) (hp : t.pins = s.pins) : Leaves (MaskKept s) (.ok t) :=
    leaves_ok (.of_steady h hp)
  have aligned {t : State} (h : Steady s t) (hp : t.pins = s.pins) : Leaves (MaskKept s) (ifAligned addr t) :=
    (leaves_error _ _).ite (hardware h hp)
  have request : Steady s (requestBdm { s with bdm := { s.bdm with instr := op } }) :=
    steady_requestBdm ((steady_bdm rfl).2 (.refl s))
  have firmware := firmwareCommand_maskKept { s with bdm := { s.bdm with instr := op } } op data
  exact .ite (hardware request (by simp)) <|
    .ite (hardware (by simp) rfl) <| .ite (hardware (by simp) rfl) <|
    .ite (aligned (by simp) rfl) <| .ite (aligned (by simp) rfl) <|
    .ite (hardware (by simp) (by simp)) <| .ite (hardware (by simp) (by simp)) <|
    .ite (aligned (by simp) (by simp)) <| .ite (aligned (by simp) (by simp)) <|
    .ite (.ite firmware (leaves_error _ _)) (leaves_error _ _)

theorem bdmCommand_maskKept (s : State) (op : Byte) (addr data : Word) :
    Leaves (MaskKept s) (bdmCommand s op addr data) :=
  .ite (leaves_ok ⟨rfl, id⟩) (runCommand_maskKept (beginCommand s) op addr data)

/-- Among the stores of an action a command changes neither the pins nor the CCR. -/
theorem commandAmong_quiet {s t u : State} {b : Bool} {c : Command} {n : Nat} (h : commandAmong s t b c n = .ok u)
    (ht : XirqQuiet t) : XirqQuiet u := by
  obtain ⟨hu, -⟩ := commandAmong_eq h
  obtain ⟨hx, hq⟩ := ht
  exact ⟨hu.flagX_eq.trans hx, (congrArg Pins.xirq hu.pins_eq).trans hq⟩

/-! ## Actions -/

/-- With XIRQ negated a maskable interrupt is recognised or none. -/
theorem recognised_of_negated {s : State} (h : s.pins.xirq = false) {v : Word} {isXirq : Bool}
    (hr : recognised s = some (v, isXirq)) : isXirq = false := by
  simp only [recognised, h, Bool.false_and, Bool.false_eq_true, if_false] at hr
  split at hr
  · obtain ⟨w, -, e⟩ := Option.map_eq_some_iff.1 hr
    exact (congrArg Prod.snd e).symm
  · cases hr

theorem continueAction_ne_interrupt (s : State) (tags : List TagKind) (v : Word) (isXirq : Bool) :
    continueAction s tags ≠ .ok (.interrupt v isXirq) := by
  intro h
  unfold continueAction at h
  split at h
  · split at h
    · cases h
    · obtain ⟨i, n, e⟩ := fetchAction_instr h
      cases e
  · cases h

/-- An interrupt that the boundary takes is the one that is recognised. -/
theorem recognised_of_boundaryAction {s : State} {tags : List TagKind} {v : Word} {isXirq : Bool}
    (h : boundaryAction s tags = .ok (.interrupt v isXirq)) : recognised s = some (v, isXirq) := by
  have hrun : s.run = .running := boundaryAction_ready h
  simp only [boundaryAction, hrun, runningAction] at h
  split at h
  · cases h
  · split at h
    · cases h
    · split at h
      · rename_i hi
        cases h
        rw [interruptHere] at hi
        split at hi
        · cases hi
        · exact hi
      · exact absurd h (continueAction_ne_interrupt s tags v isXirq)

/-- An exception that is no XIRQ keeps X. -/
theorem enterHandler_flagX (s : State) (vector : Word) : (enterHandler s vector false).flagX = s.flagX := by
  obtain ⟨-, hx, -⟩ := ccrIs_maskInterrupts s false
  rw [enterHandler_eq]
  exact hx.trans (Bool.or_false _)

theorem wakeWaiting_flagX {s : State} (h : XirqQuiet s) : (wakeWaiting s).flagX = false := by
  obtain ⟨hx, hq⟩ := h
  unfold wakeWaiting
  split
  · rename_i hr
    rw [recognised_of_negated hq hr, enterHandler_flagX, hx]
  · exact hx

theorem wakeStopped_flagX {s : State} (h : XirqQuiet s) : (wakeStopped s).flagX = false := by
  obtain ⟨hx, hq⟩ := h
  simp only [wakeStopped, hq, Bool.false_eq_true, if_false]
  split
  · exact hx
  · split
    · rw [enterHandler_flagX, hx]
    · exact hx

theorem enterBdm_flagX (s : State) (tmp2 : Word) : (enterBdm s tmp2).flagX = s.flagX := by
  rw [State.flagX, enterBdm_ccr, State.flagX]

theorem Steady.flagX {s t : State} (h : Steady s t) (hs : s.flagX = false) : t.flagX = false :=
  flagX_of_kept h.xKept hs

/-- No action but the interrupt of an XIRQ sets X where XIRQ is negated. -/
theorem act_flagX {s : State} {a : Action} (h : XirqQuiet s) (ha : ∀ v, a ≠ .interrupt v true) :
    Yields (fun t => t.flagX = false) (act s a) := by
  obtain ⟨hx, -⟩ := id h
  cases a with
  | enterBdm => exact yields_next ((enterBdm_flagX s _).trans hx)
  | tagged k =>
    refine yields_next ?_
    cases k with
    | swi => exact (steady_takeException (.refl s) _ _).flagX hx
    | bdm | pin => exact (enterBdm_flagX s _).trans hx
  | interrupt v isXirq =>
    cases isXirq with
    | true => exact absurd rfl (ha v)
    | false => exact yields_next ((steady_takeException (.refl s) _ _).flagX hx)
  | instr i n => exact (exec_effect i s).imp fun t ht => flagX_of_kept ht.xKept hx
  | resume => exact yields_next ((steady_resume s).flagX hx)
  | wakeWaiting => exact yields_next (wakeWaiting_flagX h)
  | wakeStopped => exact yields_next (wakeStopped_flagX h)
  | idle => exact yields_next hx

theorem suspendRules_pins (s : State) : (suspendRules s).pins = s.pins := by
  unfold suspendRules
  split <;> rfl

theorem push16_pins (s : State) (v : Word) : (push16 s v).pins = s.pins := (onlyStores_push16 s v).pins_eq

theorem leaveInstruction_pins (s : State) : (leaveInstruction s).pins = s.pins := by
  simp only [leaveInstruction, finished]
  split
  · rw [push16_pins, push16_pins, push16_pins]
  · exact suspendRules_pins s

theorem prepare_maskKept (s : State) (a : Action) : MaskKept s (prepare s a) := by
  refine .of_steady (steady_prepare s a) ?_
  cases a with
  | interrupt v isXirq => exact leaveInstruction_pins s
  | _ => rfl

theorem endTrace_flagX (s : State) : (endTrace s).flagX = s.flagX := by
  simp only [endTrace]
  split
  · split
    · exact enterBdm_flagX _ _
    · rfl
  · rfl

theorem noteIDelay_flagX (iWas rti : Bool) (s : State) : (noteIDelay iWas rti s).flagX = s.flagX := by
  unfold noteIDelay
  split <;> rfl

/-- The end of an action leaves the CCR. -/
theorem finish_flagX (s : State) (a : Action) (t : State) : (finish s a t).flagX = t.flagX := by
  have retired (iWas rti : Bool) : (retire iWas rti t).flagX = t.flagX := by
    rw [retire, endTrace_flagX, noteIDelay_flagX]
  cases a with
  | instr i n => exact retired _ _
  | resume => exact retired _ _
  | tagged k =>
    cases k with
    | swi => exact retired _ _
    | bdm | pin => exact endTrace_flagX t
  | enterBdm | wakeWaiting | wakeStopped => exact endTrace_flagX t
  | interrupt v isXirq => rfl
  | idle => rfl

/-! ## A BDM command inside an action -/

theorem commandWithin_flagX {s : State} {a : Action} (h : XirqQuiet s) (ha : ∀ v, a ≠ .interrupt v true) (c : Command)
    (reads n : Nat) : Yields (fun t => t.flagX = false) (commandWithin (fun q => act q a) s c reads n) := by
  intro u hu
  obtain ⟨q, t, hq, ht⟩ := commandWithin_next hu
  have hquiet : XirqQuiet q := (bdmCommand_maskKept s _ _ _ q hq).quiet h
  have done (e : Option Earlier) (st : List Slot) : Yields (fun t => t.flagX = false)
      (act { q with earlier := e, stale := st } a) := act_flagX (s := { q with earlier := e, stale := st }) hquiet ha
  rcases ht with ⟨ht, rfl⟩ | ⟨ht, hu⟩
  · exact done _ q.stale t ht
  · obtain ⟨hu, -⟩ := commandAmong_eq hu
    exact hu.flagX_eq.trans (done _ _ t ht)

theorem actWithCommand_flagX {s : State} {a : Action} (h : XirqQuiet s) (ha : ∀ v, a ≠ .interrupt v true) (cut : Cut)
    (c : Command) : Yields (fun t => t.flagX = false) (actWithCommand s a cut c) := by
  intro u hu
  simp only [actWithCommand] at hu
  have hp : XirqQuiet (prepare { s with stores := [], budget := some 1 } a) :=
    (prepare_maskKept { s with stores := [], budget := some 1 } a).quiet h
  generalize prepare { s with stores := [], budget := some 1 } a = p at *
  split at hu
  · split at hu
    · exact act_flagX (commandAmong_quiet ‹_› hp) ha u hu
    · cases hu
  · exact commandWithin_flagX (s := { p with stores := [] }) hp ha c _ _ u hu

/-! ## Events and the step -/

/-- Events have neither set X nor asked for a reset. -/
def Undisturbed (x : Arrived) : Prop :=
  x.state.flagX = false ∧ x.reset = none ∧ ∀ n src, x.within ≠ some (.reset n src)

/-- An event that resets, at the boundary or inside the action (60_exceptions.md R690). -/
def IsReset (e : Event) : Prop := ∃ src, e = .reset src ∨ ∃ n, e = .resetWithin n src

theorem requestBdm_flagX (s : State) : (requestBdm s).flagX = s.flagX := by
  unfold requestBdm
  split <;> rfl

theorem arriveEvent_undisturbed {x y : Arrived} {e : Event} (hx : Undisturbed x) (he : ¬ IsReset e)
    (h : arriveEvent x e = .ok y) : Undisturbed y := by
  obtain ⟨hX, hr, hw⟩ := hx
  cases e with
  | reset src => exact absurd ⟨src, .inl rfl⟩ he
  | resetWithin n src => exact absurd ⟨src, .inr ⟨n, rfl⟩⟩ he
  | command op addr data =>
    cases ht : bdmCommand x.state op addr data with
    | error r => simp [arriveEvent, ht, Except.map] at h
    | ok t =>
      obtain rfl : { x with state := nextDraw t } = y := by simpa [arriveEvent, ht, Except.map] using h
      exact ⟨(bdmCommand_maskKept x.state op addr data t ht).flagX hX, hr, hw⟩
  | commandWithin cut c =>
    cases h
    refine ⟨hX, hr, fun n src => ?_⟩
    have hold := hw n src
    cases hx : x.within with
    | none => simp
    | some w => simpa [hx] using hold
  | forceBdm =>
    cases h
    refine ⟨?_, hr, hw⟩
    dsimp only
    split
    · exact hX
    · rw [requestBdm_flagX, hX]
  | hostTimeout =>
    cases h
    refine ⟨?_, hr, hw⟩
    dsimp only
    split <;> exact hX
  | _ =>
    cases h
    exact ⟨hX, hr, hw⟩

theorem arriveEvents_undisturbed {es : List Event} {x y : Arrived} (hx : Undisturbed x) (he : ∀ e ∈ es, ¬ IsReset e)
    (h : arriveEvents es x = .ok y) : Undisturbed y := by
  induction es generalizing x with
  | nil =>
    cases h
    exact hx
  | cons e es ih =>
    rw [List.forall_mem_cons] at he
    obtain ⟨hfirst, hrest⟩ := he
    unfold arriveEvents at h
    split at h
    · exact ih (arriveEvent_undisturbed hx hfirst ‹_›) hrest h
    · cases h

/-- At a boundary where XIRQ is negated and X is 0, with or without a BDM command inside, X stays 0. -/
theorem stepAt_flagX {s : State} (h : XirqQuiet s) (tags : List TagKind) {w : Option Within}
    (hw : ∀ n src, w ≠ some (.reset n src)) : Yields (fun t => t.flagX = false) (stepAt s tags w) := by
  obtain ⟨-, hq⟩ := id h
  have noXirq {a : Action} (ha : boundaryAction s tags = .ok a) : ∀ v, a ≠ .interrupt v true := by
    rintro v rfl
    exact absurd (recognised_of_negated hq (recognised_of_boundaryAction ha)) (by decide)
  intro t ht
  rcases w with _ | ⟨cut, c⟩ | ⟨n, src⟩
  case none =>
    obtain ⟨a, u, ha, hu, rfl⟩ := boundary_next.1 ht
    rw [finish_flagX]
    exact act_flagX ((prepare_maskKept s a).quiet h) (noXirq ha) u hu
  case some.command =>
    obtain ⟨a, u, ha, hu, rfl⟩ := boundaryWithCommand_next.1 ht
    rw [finish_flagX]
    exact actWithCommand_flagX h (noXirq ha) cut c u hu
  case some.reset => exact absurd rfl (hw n src)

/-- Without a reset, and with XIRQ negated once the events have arrived, a step leaves X at 0. -/
theorem step_flagX {s t : State} {x : Arrived} (hs : s.flagX = false) (he : ∀ e ∈ s.schedule.headD [], ¬ IsReset e)
    (hx : arrivals s = .ok x) (hq : x.state.pins.xirq = false) (h : step s = .next t) : t.flagX = false := by
  have start : Undisturbed ⟨{ s with schedule := s.schedule.tail }, none, [], none⟩ := ⟨hs, rfl, nofun⟩
  obtain ⟨hX, hr, hw⟩ := arriveEvents_undisturbed start he hx
  simp only [step, oneStep, hx, hr] at h
  obtain ⟨u, hu, rfl⟩ := mapNext_next.1 h
  exact stepAt_flagX ⟨hX, hq⟩ x.tags hw u hu

/-- Settles O11: a step that sets X has a reset among its events, or XIRQ asserted where they have arrived. -/
theorem onlyResetOrXirqSetsTheXMask : Obligations.OnlyResetOrXirqSetsTheXMask := by
  unfold Obligations.OnlyResetOrXirqSetsTheXMask
  intro s t h hs ht
  by_cases he : ∃ e ∈ s.schedule.headD [], IsReset e
  · obtain ⟨e, hmem, src, rfl | ⟨n, rfl⟩⟩ := he
    · exact .inl ⟨src, .inl hmem⟩
    · exact .inl ⟨src, .inr ⟨n, hmem⟩⟩
  · right
    have hnone : ∀ e ∈ s.schedule.headD [], ¬ IsReset e := fun e hmem hreset => he ⟨e, hmem, hreset⟩
    cases hx : arrivals s with
    | error r => simp [step, oneStep, hx] at h
    | ok x =>
      refine ⟨x, rfl, ?_⟩
      by_contra hq
      rw [Bool.not_eq_true] at hq
      exact Bool.false_ne_true ((step_flagX hs hnone hx hq h).symm.trans ht)

end Sys2Proof.Machine
end

section
/-! PROOF. Condition codes, stack and subroutines (49_ccr_stop_misc.md R611 to R618, 48_index_stack_lea.md R575 to R587,
47_jump_sub_int.md R520 to R526): one rule for a push of each width, then pushes, pulls, jumps, CALL and RTC. -/

namespace Sys2Proof.Machine

/-! ## ANDCC, ORCC and their translations -/

theorem andCcr_getLsbD (s : State) (m : Byte) (k : Nat) :
    (andCcr m s).ccr.getLsbD k = (s.ccr.getLsbD k && m.getLsbD k) := BitVec.getLsbD_and

/-- The mask $BF leaves bit 6 out. -/
theorem orCcr_getLsbD (s : State) (m : Byte) (k : Nat) :
    (orCcr m s).ccr.getLsbD k = (s.ccr.getLsbD k || (m.getLsbD k && decide (k ≠ 6))) := by
  have hmask : (m &&& 0xBF).getLsbD k = (m.getLsbD k && decide (k ≠ 6)) := by
    by_cases hk : k < 8
    · have h : ∀ j < 8, (0xBF : Byte).getLsbD j = decide (j ≠ 6) := by decide
      rw [BitVec.getLsbD_and, h k hk]
    · rw [BitVec.getLsbD_of_ge _ k (Nat.le_of_not_lt hk), BitVec.getLsbD_of_ge _ k (Nat.le_of_not_lt hk), Bool.false_and]
  rw [orCcr, State.setCcr_ccr, BitVec.getLsbD_or, hmask]

/-- `t` is `s` with one bit of the CCR made `v`. -/
def SetsBit (s t : State) (bit : Nat) (v : Bool) : Prop :=
  t.ccr.getLsbD bit = v ∧ (∀ k, k ≠ bit → t.ccr.getLsbD k = s.ccr.getLsbD k) ∧ t = { s with ccr := t.ccr }

/-- ANDCC with a mask of which one bit is 0. -/
theorem setsBit_andCcr (s : State) {m : Byte} {bit : Nat} (hm : ∀ k < 8, m.getLsbD k = decide (k ≠ bit))
    (hbit : bit < 8) : SetsBit s (andCcr m s) bit false := by
  refine ⟨?_, fun k hk => ?_, rfl⟩
  · simp [andCcr_getLsbD, hm bit hbit]
  · rw [andCcr_getLsbD]
    by_cases h : k < 8
    · simp [hm k h, hk]
    · rw [BitVec.getLsbD_of_ge s.ccr k (Nat.le_of_not_lt h), Bool.false_and]

/-- ORCC with a mask of which one bit, not that of X, is 1. -/
theorem setsBit_orCcr (s : State) {m : Byte} {bit : Nat} (hm : ∀ k < 8, m.getLsbD k = decide (k = bit))
    (hbit : bit < 8) (hx : bit ≠ 6) : SetsBit s (orCcr m s) bit true := by
  refine ⟨?_, fun k hk => ?_, rfl⟩
  · simp [orCcr_getLsbD, hm bit hbit, hx]
  · rw [orCcr_getLsbD]
    by_cases h : k < 8
    · simp [hm k h, hk]
    · rw [BitVec.getLsbD_of_ge m k (Nat.le_of_not_lt h), Bool.false_and, Bool.or_false]

/-- Settles O55: the masks of ANDCC and ORCC bit by bit, and the six masks that name one bit. -/
theorem ccrInstructionsChangeTheirBits : Obligations.CcrInstructionsChangeTheirBits := by
  unfold Obligations.CcrInstructionsChangeTheirBits
  refine ⟨fun s m => ⟨_, rfl, andCcr_getLsbD s m, rfl⟩, fun s m => ⟨_, rfl, orCcr_getLsbD s m, rfl⟩, ?_⟩
  intro s i bit v h
  refine (List.forall_iff_forall_mem (p := fun row : Instr × Nat × Bool =>
    Completes (exec row.1 s) fun t => SetsBit s t row.2.1 row.2.2)).mp ?_ _ h
  have clears {m : Byte} {bit : Nat} := setsBit_andCcr s (m := m) (bit := bit)
  have sets {m : Byte} {bit : Nat} := setsBit_orCcr s (m := m) (bit := bit)
  exact ⟨⟨_, rfl, clears (by decide) (by decide)⟩, ⟨_, rfl, clears (by decide) (by decide)⟩,
    ⟨_, rfl, clears (by decide) (by decide)⟩, ⟨_, rfl, sets (by decide) (by decide) (by decide)⟩,
    ⟨_, rfl, sets (by decide) (by decide) (by decide)⟩, ⟨_, rfl, sets (by decide) (by decide) (by decide)⟩⟩

/-! ## Pushes and pulls -/

section
variable {s u t : State}

theorem OnlyIndexes.setSp (h : OnlyIndexes s u) (v : Word) : OnlyIndexes s (u.setSp v) := by
  rw [OnlyIndexes] at h ⊢
  rw [h]
  rfl

/-- A push of a byte after a change of index registers, and before a change that leaves memory. -/
theorem stored_push8 (hu : OnlyIndexes s u) {v : Byte} (ht : SameMemory (push8 u v) t) :
    Stored s t (u.sp - 1) v ∧ StoresOnly s t [u.sp - 1] := stored_store8 (hu.setSp (u.sp - 1)) ht

/-- The same for a word, high byte first. -/
theorem storedWord_push16 (hu : OnlyIndexes s u) {v : Word} (ht : SameMemory (push16 u v) t) :
    StoredWord s t (u.sp - 2) v ∧ StoresOnly s t [u.sp - 2, u.sp - 1] := by
  have h : StoredWord s t (u.sp - 2) v ∧ StoresOnly s t [u.sp - 2, u.sp - 2 + 1] :=
    storedWord_store16 (hu.setSp (u.sp - 2)) ht
  rwa [show u.sp - 2 + 1 = u.sp - 1 by bv_omega] at h

/-- A state that stores have led to, written out. -/
theorem OnlyStores.written (h : OnlyStores u t) : ∃ m p d e st es,
    t = { u with mem := m, ppage := p, dpage := d, epage := e, stale := st, stores := es } := ⟨_, _, _, _, _, _, h⟩

/-- Stores, then a change of flow. -/
theorem OnlyStores.jump (h : OnlyStores u t) (p : Word) : OnlyStores { u with pc := p } (jump t p) :=
  congrArg (Machine.jump · p) h

theorem sameMemory_jump (s : State) (p : Word) : SameMemory s (jump s p) := ⟨rfl, rfl, rfl, rfl, rfl, rfl⟩

end

/-- What a push of a byte does. -/
def PushesByte (s t : State) (v : Byte) : Prop :=
  Stored s t (s.sp - 1) v ∧ StoresOnly s t [s.sp - 1] ∧ OnlyStores { s with sp := s.sp - 1 } t

/-- What a push of a word does. -/
def PushesWord (s t : State) (v : Word) : Prop :=
  StoredWord s t (s.sp - 2) v ∧ StoresOnly s t [s.sp - 2, s.sp - 1] ∧ OnlyStores { s with sp := s.sp - 2 } t

theorem pushesByte_push8 (s : State) (v : Byte) : PushesByte s (push8 s v) v := by
  obtain ⟨hstored, honly⟩ := stored_push8 (OnlyIndexes.refl s) (SameMemory.refl (push8 s v))
  exact ⟨hstored, honly, onlyStores_push8 s v⟩

theorem pushesWord_push16 (s : State) (v : Word) : PushesWord s (push16 s v) v := by
  obtain ⟨hstored, honly⟩ := storedWord_push16 (OnlyIndexes.refl s) (SameMemory.refl (push16 s v))
  exact ⟨hstored, honly, onlyStores_push16 s v⟩

/-- Settles O54: each push is the push of its register, each pull a read and the registers it writes. -/
theorem pushesAndPullsMoveTheStackPointer : Obligations.PushesAndPullsMoveTheStackPointer := by
  unfold Obligations.PushesAndPullsMoveTheStackPointer
  refine ⟨fun s v i h => ?_, fun s v i h => ?_, fun _ => rfl, fun _ => rfl,
    fun s => ⟨_, rfl, loadsCcr_protectX s _ _ rfl, rfl⟩, fun s => ⟨_, rfl, ?_, ?_, rfl⟩, fun _ => rfl, fun _ => rfl⟩
  · refine (List.forall_iff_forall_mem (p := fun row : Byte × Instr =>
      Completes (exec row.2 s) fun t => PushesByte s t row.1)).mp ?_ _ h
    exact ⟨⟨_, rfl, pushesByte_push8 s _⟩, ⟨_, rfl, pushesByte_push8 s _⟩, ⟨_, rfl, pushesByte_push8 s _⟩⟩
  · refine (List.forall_iff_forall_mem (p := fun row : Word × Instr =>
      Completes (exec row.2 s) fun t => PushesWord s t row.1)).mp ?_ _ h
    exact ⟨⟨_, rfl, pushesWord_push16 s _⟩, ⟨_, rfl, pushesWord_push16 s _⟩, ⟨_, rfl, pushesWord_push16 s _⟩⟩
  · exact hiByte_joinBytes _ _
  · exact loByte_joinBytes _ _

/-! ## Jumps and subroutines -/

/-- Settles O51: BSR and JSR are a push of the PC, for JSR after the update of the operand, then a change of flow. -/
theorem subroutineCallsPushTheReturnAddress : Obligations.SubroutineCallsPushTheReturnAddress := by
  unfold Obligations.SubroutineCallsPushTheReturnAddress
  refine ⟨fun s m => rfl, fun s rel => ⟨_, rfl, ?_⟩, fun s m => ⟨_, rfl, ?_⟩, fun s => rfl⟩
  · obtain ⟨hstored, honly⟩ := storedWord_push16 (OnlyIndexes.refl s) (sameMemory_jump (push16 s s.pc) (s.pc + sext16 rel))
    rw [← add_sext16]
    exact ⟨hstored, honly, (onlyStores_push16 s s.pc).jump _, rfl⟩
  · obtain ⟨hstored, honly⟩ :=
      storedWord_push16 (onlyIndexes_mem3Update s m) (sameMemory_jump (push16 (mem3Update s m) s.pc) (mem3Ea s m))
    exact ⟨hstored, honly, (onlyStores_push16 (mem3Update s m) s.pc).jump _, rfl⟩

/-! ## CALL and RTC -/

/-- The order in which bytes were written does not show where no two share an address. -/
theorem Wrote.of_mem_iff {s t : State} {ps qs : List (Word × Byte)} (h : Wrote s t ps) (hmem : ∀ p, p ∈ qs ↔ p ∈ ps) :
    Wrote s t qs := by
  have hfst (a : Word) : a ∈ qs.map Prod.fst ↔ a ∈ ps.map Prod.fst := by simp only [List.mem_map, hmem]
  have honly := h.only
  refine ⟨h.cfg, h.windows, fun a ha => h.noPage a ((hfst a).1 ha), ?_, fun p hp hne => ?_⟩
  · simpa only [StoresOnly, hfst] using honly
  · exact h.stored p ((hmem p).1 hp) fun b hb => hne b ((hfst b).2 hb)

/-- A byte pushed to a new address. -/
theorem Wrote.push8 {s t : State} {ps : List (Word × Byte)} (h : Wrote s t ps) {p : Word} (hsp : t.sp = p + 1)
    (hp : ¬ isPageRegister s p) (hnew : p ∉ ps.map Prod.fst) (v : Byte) : Wrote s (push8 t v) (ps ++ [(p, v)]) := by
  have hto : t.sp - 1 = p := by rw [hsp, BitVec.add_sub_cancel]
  have hmap : locate (t.setSp p) p = locate s p := (h.of_sameMemory (sameMemory_setSp t p)).locate_eq p
  have hwrite := (h.of_sameMemory (sameMemory_setSp t p)).writeTarget hp hnew v
  rw [← hmap] at hwrite
  rw [push8_eq, hto]
  exact hwrite.of_sameMemory (sameMemory_logStore _ _)

/-- A word pushed to two new addresses. -/
theorem Wrote.push16 {s t : State} {ps : List (Word × Byte)} (h : Wrote s t ps) {p q : Word} (hsp : t.sp = p + 2)
    (hq : q = p + 1) (hpage : ¬ isPageRegister s p) (hpage' : ¬ isPageRegister s q) (hnew : p ∉ ps.map Prod.fst)
    (hnew' : q ∉ ps.map Prod.fst) (v : Word) : Wrote s (push16 t v) (ps ++ [(p, hiByte v), (q, loByte v)]) := by
  subst hq
  have hto : t.sp - 2 = p := by rw [hsp, BitVec.add_sub_cancel]
  rw [push16_eq, hto]
  exact (h.of_sameMemory (sameMemory_setSp t p)).store16 hpage hpage' hnew hnew' v

/-- Bytes written from a state with the same memory. -/
theorem Wrote.from_sameMemory {s u t : State} {ps : List (Word × Byte)} (h : Wrote u t ps) (hs : SameMemory s u) :
    Wrote s t ps := by
  obtain ⟨-, hc, hw, -⟩ := id hs
  refine ⟨h.cfg.trans hc, h.windows.trans hw, fun a ha => (hs.isPageRegister a).not.1 (h.noPage a ha),
    h.only.of_sameMemory hs (SameMemory.refl t), fun p hp hne => ?_⟩
  refine (h.stored p hp fun b hb e => ?_).of_sameMemory hs (SameMemory.refl t)
  rw [hs.slotAt, hs.slotAt]
  exact hne b hb e

/-- A word pushed, then a byte. -/
theorem wrote_push16_push8 {s : State} (h : ∀ k < 3, ¬ isPageRegister s (s.sp - 3 + BitVec.ofNat 16 k)) (v : Word)
    (w : Byte) :
    Wrote s (push8 (push16 s v) w) [(s.sp - 3, w), (s.sp - 2, hiByte v), (s.sp - 1, loByte v)] := by
  have e1 : s.sp - 3 + 1 = s.sp - 2 := by bv_omega
  have e2 : s.sp - 3 + 2 = s.sp - 1 := by bv_omega
  have h0 : ¬ isPageRegister s (s.sp - 3) := by simpa using h 0 (by decide)
  have h1 : ¬ isPageRegister s (s.sp - 2) := e1 ▸ h 1 (by decide)
  have h2 : ¬ isPageRegister s (s.sp - 1) := e2 ▸ h 2 (by decide)
  have hword := (Wrote.nil s).push16 (p := s.sp - 2) (q := s.sp - 1) (by bv_omega) (by bv_omega) h1 h2
    List.not_mem_nil List.not_mem_nil v
  have hbyte := hword.push8 (p := s.sp - 3) (by rw [push16_sp]; bv_omega) h0 (by simp) w
  exact hbyte.of_mem_iff fun p => (List.perm_append_singleton _ _).mem_iff.symm

/-- What the pushes of CALL change beside memory. -/
theorem onlyStores_push16_push8 (s : State) (v : Word) (w : Byte) :
    OnlyStores { s with sp := s.sp - 3 } (push8 (push16 s v) w) := by
  have hsp : s.sp - 2#16 - 1#16 = s.sp - 3#16 := by bv_omega
  rw [onlyStores_iff]
  simp [push16_eq, push8_eq, hsp]

/-- PPAGE after a write through the dedicated line (R37, D6). -/
def pageWritten (s : State) (v : Byte) : Byte :=
  if s.cfg.ppageBits = 0 then s.ppage else BitVec.ofNat 8 (v.toNat % 2 ^ s.cfg.ppageBits)

theorem writePpage_form (s : State) (v : Byte) :
    ∃ st, writePpage s v = { s with ppage := pageWritten s v, stores := st } := ⟨_, writePpage_eq s v⟩

/-- All that CALL does after its register update led from `s` to `u`: the page is written, then two pushes in the new
map, then the jump. -/
theorem call_spec {s u : State} (hu : OnlyIndexes s u) (page : Byte) (target : Word) :
    let t := jump (push8 (push16 (writePpage u page) s.pc) (readPpage s)) target
    let v : State := { u with ppage := pageWritten s page }
    t.sp = u.sp - 3 ∧
    t = { u with sp := t.sp, pc := t.pc, mem := t.mem, ppage := t.ppage, dpage := t.dpage, epage := t.epage,
                 stale := [], stores := t.stores } ∧
    ((∀ k < 3, ¬ isPageRegister v (u.sp - 3 + BitVec.ofNat 16 k)) →
      Wrote v t [(u.sp - 3, readPpage s), (u.sp - 2, hiByte s.pc), (u.sp - 1, loByte s.pc)]) := by
  obtain ⟨-, -, -, -, -, hcfg, -, hpage, -⟩ := hu.fields
  obtain ⟨st, hw⟩ := writePpage_form u page
  have hwritten : pageWritten u page = pageWritten s page := by rw [pageWritten, pageWritten, hcfg, hpage]
  rw [hw, hwritten]
  have hpushed := onlyStores_push16_push8 { u with ppage := pageWritten s page, stores := st } s.pc (readPpage s)
  refine ⟨?_, ?_, fun hfree => ?_⟩
  · rw [jump_sp, push8_sp, push16_sp]
    bv_omega
  · obtain ⟨m, p, d, e, stale, es, h⟩ := hpushed.written
    rw [h]
    rfl
  · have hsame : SameMemory { u with ppage := pageWritten s page } { u with ppage := pageWritten s page, stores := st } :=
      ⟨rfl, rfl, rfl, rfl, rfl, rfl⟩
    have hwrote := wrote_push16_push8 (s := { u with ppage := pageWritten s page, stores := st })
      (fun k hk => (hsame.isPageRegister _).not.2 (hfree k hk)) s.pc (readPpage s)
    exact (hwrote.from_sameMemory hsame).of_sameMemory (sameMemory_jump _ target)

/-- The byte of PPAGE that CALL pushes, where there is a PPAGE and no BDM command inside the instruction. -/
theorem readPpage_eq {s : State} (hbits : s.cfg.ppageBits ≠ 0) (h : s.earlier = none) : readPpage s = s.ppage := by
  rw [readPpage, if_neg hbits, seenBy_none h]

/-- Settles O52: the operand forms of CALL, its effect, and that of RTC, whose pulls precede the write of PPAGE. -/
theorem callAndRtcKeepThePage : Obligations.CallAndRtcKeepThePage := by
  unfold Obligations.CallAndRtcKeepThePage
  refine ⟨fun s a pg m => ⟨rfl, rfl, rfl, rfl, rfl, rfl⟩, fun s r n => ?_, fun s dest => ⟨_, rfl, ?_⟩,
    fun s => ⟨_, rfl, ?_⟩⟩
  · intro p q
    have hp : idxPointer s r n = p := add_eq_ofNat _ _
    have hq : idxPointer s r s.d = q := by rw [idxPointer, add_eq_ofNat, toNat_d, ← Nat.add_assoc]
    rw [← hp, ← hq]
    exact ⟨rfl, rfl, rfl, rfl, rfl, rfl⟩
  · obtain ⟨hsp, hframe, hwrote⟩ := call_spec (onlyIndexes_callUpdate s dest) (callPage s dest) (callTarget s dest)
    refine ⟨hsp, rfl, hframe, fun hfree => ?_⟩
    have h := hwrote hfree
    have honly := h.only
    obtain ⟨-, hppage, -⟩ := id honly
    refine ⟨hppage fun a ha e => h.noPage a ha (.inl e), honly, readPpage s, readPpage_eq, ?_⟩
    rw [bytesOfWords_cons, bytesOfWords]
    exact h.storedBytes
  · obtain ⟨st, hw⟩ := writePpage_form (drop s 3) (top8 s)
    rw [hw]
    exact ⟨rfl, rfl⟩

end Sys2Proof.Machine
end

section
/-! PROOF. Exceptions (60_exceptions.md R670 to R681, 47_jump_sub_int.md R530 to R536): the frame, byte by byte, taking an
exception and returning from it; STOP, WAI and BGND (49_ccr_stop_misc.md R620 to R635). -/

namespace Sys2Proof.Machine

/-! ## The frame -/

/-- The nine bytes of the frame with their addresses. -/
def framePairs (s : State) (rtn : Word) : List (Word × Byte) := (frameAddresses (s.sp - 9)).zip (frameBytes s rtn)

theorem map_fst_framePairs (s : State) (rtn : Word) : (framePairs s rtn).map Prod.fst = frameAddresses (s.sp - 9) := rfl

theorem map_snd_framePairs (s : State) (rtn : Word) : (framePairs s rtn).map Prod.snd = frameBytes s rtn := rfl

/-- The pushes of the frame, RTN first, at the nine addresses below SP. -/
theorem wrote_pushFrame {s : State} (h : ∀ a ∈ frameAddresses (s.sp - 9), ¬ isPageRegister s a) (rtn : Word) :
    Wrote s (pushFrame s rtn) (framePairs s rtn) := by
  have hs : s.sp = s.sp - 9 + 9 := (BitVec.sub_add_cancel s.sp 9).symm
  have hbytes : frameBytes s rtn =
      [s.ccr, s.b, s.a, hiByte s.x, loByte s.x, hiByte s.y, loByte s.y, hiByte rtn, loByte rtn] := by
    simp only [frameBytes, hiByte_eq, loByte_eq]
  rw [framePairs, hbytes]
  generalize s.sp - 9 = q at *
  simp only [frameAddresses, List.forall_mem_cons, List.not_mem_nil, false_implies, implies_true, and_true] at h
  obtain ⟨h0, h1, h2, h3, h4, h5, h6, h7, h8⟩ := h
  have hrtn := (Wrote.nil s).push16 (p := q + 7) (q := q + 8) (by rw [hs]; bv_omega) (by bv_omega) h7 h8
    List.not_mem_nil List.not_mem_nil rtn
  have hy := hrtn.push16 (p := q + 5) (q := q + 6) (by simp only [push16_sp, hs]; bv_omega) (by bv_omega) h5 h6
    (by simp) (by simp) s.y
  have hx := hy.push16 (p := q + 3) (q := q + 4) (by simp only [push16_sp, hs]; bv_omega) (by bv_omega) h3 h4
    (by simp) (by simp) s.x
  have hd := hx.push16 (p := q + 1) (q := q + 2) (by simp only [push16_sp, hs]; bv_omega) (by bv_omega) h1 h2
    (by simp) (by simp) (joinBytes s.b s.a)
  have hccr : Wrote s (pushFrame s rtn) _ := hd.push8 (p := q) (by simp only [push16_sp, hs]; bv_omega) h0 (by simp) s.ccr
  rw [hiByte_joinBytes, loByte_joinBytes] at hccr
  refine hccr.of_mem_iff fun p => iff_of_eq ?_
  simp only [frameAddresses, List.zip_cons_cons, List.zip_nil_right, List.nil_append, List.cons_append, List.mem_cons,
    List.not_mem_nil, or_false]
  ac_rfl

/-- A state with the frame pushed, whatever else has been done but to memory. -/
theorem framePushed_of_sameMemory {s t : State} {rtn : Word} (h : SameMemory (pushFrame s rtn) t)
    (hsp : t.sp = s.sp - 9) : FramePushed s t rtn := by
  refine ⟨hsp, fun hpage => ?_⟩
  have hwrote := (wrote_pushFrame hpage rtn).of_sameMemory h
  exact ⟨hwrote.storedBytes, hwrote.only⟩

theorem sameMemory_handled (p : State) (ccr : Byte) (pc : Word) :
    SameMemory p { dropTemporaries p with ccr := ccr, pc := pc, stale := [] } := ⟨rfl, rfl, rfl, rfl, rfl, rfl⟩

theorem sameMemory_run (p : State) (r : RunState) : SameMemory p { p with run := r } := ⟨rfl, rfl, rfl, rfl, rfl, rfl⟩

theorem sameMemory_takeException (s : State) (vector rtn : Word) (isXirq : Bool) :
    SameMemory (pushFrame s rtn) (takeException s vector rtn isXirq) := by
  rw [takeException_eq]
  exact sameMemory_handled _ _ _

@[simp] theorem takeException_sp (s : State) (vector rtn : Word) (isXirq : Bool) :
    (takeException s vector rtn isXirq).sp = s.sp - 9 := by
  rw [takeException_eq]
  simp only [dropTemporaries_sp, pushFrame_sp]

/-- All that taking an exception does. -/
theorem entered_takeException (s : State) (vector rtn : Word) (isXirq : Bool) :
    Entered s (takeException s vector rtn isXirq) vector rtn isXirq := by
  refine ⟨framePushed_of_sameMemory (sameMemory_takeException s vector rtn isXirq) (takeException_sp s vector rtn isXirq),
    rfl, ?_⟩
  obtain ⟨m, p, d, e, stale, es, h⟩ := (onlyStores_pushFrame s rtn).written
  rw [takeException_eq, h]
  exact ⟨ccrIs_maskInterrupts s isXirq, rfl⟩

/-! ## RTI after an exception, where the stack is in RAM -/

theorem frameAddresses_eq (p : Word) : frameAddresses p = (List.range 9).map fun k => p + BitVec.ofNat 16 k := by
  simp [frameAddresses, List.range_succ]

section
variable {s t : State} {ps : List (Word × Byte)}

theorem Wrote.allRam (h : Wrote s t ps) (hs : AllRam s) (he : t.earlier = none) : AllRam t := by
  obtain ⟨hmap, -⟩ := hs
  exact ⟨fun z => (h.locate_eq z).trans (hmap z), he⟩

/-- In RAM every byte that was written reads back, since no two addresses share one. -/
theorem Wrote.ramByte (h : Wrote s t ps) (hs : AllRam s) (ht : AllRam t) {a : Word} {v : Byte} (hp : (a, v) ∈ ps) :
    ramByte t a = v := by
  have hslots : ∀ b ∈ ps.map Prod.fst, b ≠ a → slotAt s b ≠ slotAt s a := fun b _ hne e => by
    rw [hs.slotAt, hs.slotAt, Slot.cell.injEq] at e
    exact hne (BitVec.eq_of_toNat_eq e)
  have hread : byteAt t a = some v := h.stored (a, v) hp hslots a.toNat (hs.1 a)
  rw [ht.byteAt, Option.some.injEq] at hread
  exact hread

/-- Every other byte of RAM is kept. -/
theorem Wrote.ramByte_of_not_mem (h : Wrote s t ps) (hs : AllRam s) {z : Word} (hz : ∀ a ∈ ps.map Prod.fst, z ≠ a) :
    Machine.ramByte t z = Machine.ramByte s z := by
  obtain ⟨hmem, -⟩ := h.only
  refine hmem z.toNat fun a ha e => ?_
  rw [hs.1, Target.cell.injEq] at e
  exact hz a ha (BitVec.eq_of_toNat_eq e.1.symm)

theorem Wrote.ramHolds_frame {rtn : Word} (h : Wrote s t (framePairs s rtn)) (hs : AllRam s) (ht : AllRam t) :
    RamHolds t (s.sp - 9) (frameBytes s rtn) := by
  intro k hk
  refine h.ramByte hs ht (List.mem_iff_getElem.2 ⟨k, hk, ?_⟩)
  have haddress (h : k < (frameAddresses (s.sp - 9)).length) :
      (frameAddresses (s.sp - 9))[k] = s.sp - 9 + BitVec.ofNat 16 k := by
    simp only [frameAddresses_eq, List.getElem_map, List.getElem_range]
  simp only [framePairs, List.getElem_zip, haddress]

end

/-- RTI right after an exception that is no XIRQ. -/
theorem returnFromException_takeException {s : State} (hs : AllRam s) (vector : Word) :
    let u := returnFromException (takeException s vector s.pc false)
    u = { s with mem := u.mem, stale := [], stores := u.stores, tmp1 := u.tmp1, tmp2 := u.tmp2, tmp3 := u.tmp3 } ∧
    ∀ z : Word, (∀ a ∈ frameAddresses (s.sp - 9), z ≠ a) → ramByte u z = ramByte s z := by
  obtain ⟨-, -, ⟨-, hx, -⟩, hform⟩ := entered_takeException s vector s.pc false
  have hnoPage : ∀ a ∈ frameAddresses (s.sp - 9), ¬ isPageRegister s a := fun a _ => not_isPageRegister hs a
  have hsame := sameMemory_takeException s vector s.pc false
  have hwrote := (wrote_pushFrame hnoPage s.pc).of_sameMemory hsame
  obtain ⟨-, hp, hd, he, -⟩ := id hwrote.only
  have hsp := takeException_sp s vector s.pc false
  have hnotPage (g : Target) (hg : g.isPage) : ∀ a ∈ frameAddresses (s.sp - 9), locate s a ≠ g :=
    fun a ha e => hnoPage a ha (by rw [isPageRegister_iff, e]; exact hg)
  rw [hp (hnotPage _ (.inl rfl)), hd (hnotPage _ (.inr (.inl rfl))), he (hnotPage _ (.inr (.inr rfl)))] at hform
  generalize takeException s vector s.pc false = t at *
  have ht : AllRam t := hwrote.allRam hs (by rw [hform]; exact hs.2)
  have hbytes : RamHolds t t.sp (frameBytes s s.pc ++ []) := by
    rw [hsp, List.append_nil]
    exact hwrote.ramHolds_frame hs ht
  have hrti := returnFromException_of_ramHolds ht hbytes fun h => by rw [hx, h]; rfl
  rw [hsp, BitVec.sub_add_cancel] at hrti
  dsimp only
  rw [hrti]
  refine ⟨?_, fun z hz => hwrote.ramByte_of_not_mem hs hz⟩
  rw [hform]
  rfl

/-- Settles O53: SWI and TRAP take an exception, RTI returns from one, and the frame in RAM reads back. -/
theorem exceptionsAreTakenAndReturnedFrom : Obligations.ExceptionsAreTakenAndReturnedFrom := by
  unfold Obligations.ExceptionsAreTakenAndReturnedFrom
  refine ⟨⟨fun s => ⟨⟨_, rfl, entered_takeException s _ _ _⟩, fun tn => ⟨_, rfl, entered_takeException s _ _ _⟩⟩,
    fun s => ⟨_, rfl, ?_⟩⟩, ?_⟩
  · rw [returnFromException_eq]
    exact ⟨loadsCcr_protectX s _ _ rfl, readsSame_of rfl rfl rfl rfl rfl rfl, rfl⟩
  · rintro s t u i hs (rfl | ⟨tn, rfl⟩) ⟨⟩ ⟨⟩
    · exact returnFromException_takeException hs 0xFFF6
    · exact returnFromException_takeException hs 0xFFF8

/-! ## Activation of BDM -/

/-- What every activation of BDM does (60_exceptions.md R700, R701, R704): nothing is stacked, the CCR is held; with
ENBDM = 0 the program goes on. -/
theorem enterBdm_spec (s : State) (tmp2 : Word) :
    let t := enterBdm s tmp2
    t = { s with tmp2 := tmp2, pc := t.pc, run := t.run, bdm := t.bdm, stale := [] } ∧
    t.bdm = { s.bdm with ccr := s.ccr, request := false, status := t.bdm.status } ∧
    (s.bdm.status.getLsbD 7 = false → t.pc = tmp2 ∧ t.run = s.run ∧ t.bdm.status = s.bdm.status) ∧
    (s.bdm.status.getLsbD 7 = true → t.pc = substituteVector s ∧ t.run = .bdmActive ∧ bdmActiveBit t = true ∧
      tagEnableBit t = false ∧ ∀ k, k ≠ 5 → k ≠ 6 → t.bdm.status.getLsbD k = s.bdm.status.getLsbD k) := by
  cases h : s.bdm.status.getLsbD 7 with
  | false =>
    rw [enterBdm_disabled h]
    exact ⟨rfl, rfl, fun _ => ⟨rfl, rfl, rfl⟩, nofun⟩
  | true =>
    rw [enterBdm_enabled h]
    refine ⟨rfl, rfl, nofun, fun _ => ⟨rfl, rfl, ?_, ?_, fun k h5 h6 => ?_⟩⟩
    · simp [bdmActiveBit]
    · simp [tagEnableBit]
    · exact (putBit_getLsbD_of_ne _ _ (by decide) h5).trans (putBit_getLsbD_of_ne _ _ (by decide) h6)

/-- STOP and WAI: the frame, then another run state. -/
theorem suspended_spec (s : State) (r : RunState) :
    FramePushed s { pushFrame s s.pc with run := r } s.pc ∧
    OnlyStores { s with sp := s.sp - 9, run := r } { pushFrame s s.pc with run := r } := by
  have hsp : ({ pushFrame s s.pc with run := r } : State).sp = s.sp - 9 := by simp only [pushFrame_sp]
  refine ⟨framePushed_of_sameMemory (sameMemory_run _ r) hsp, ?_⟩
  obtain ⟨m, p, d, e, stale, es, h⟩ := (onlyStores_pushFrame s s.pc).written
  rw [h]
  rfl

/-- Settles O56: STOP by S, WAI by its frame, BGND by the activation of BDM at its own address. -/
theorem nopStopWaiAndBgnd : Obligations.NopStopWaiAndBgnd := by
  unfold Obligations.NopStopWaiAndBgnd
  have stop (s : State) : exec .stop s = if s.flagS then .next s else .next { pushFrame s s.pc with run := .stopped } :=
    rfl
  refine ⟨⟨fun s => rfl, fun s h => ?_, fun s h => ⟨_, ?_, suspended_spec s .stopped⟩,
    fun s => ⟨_, rfl, suspended_spec s .waiting⟩⟩, fun s => ⟨_, rfl, ?_⟩⟩
  · rw [stop, h]
    rfl
  · rw [stop, h]
    rfl
  · obtain ⟨hform, hbdm, hoff, hon⟩ := enterBdm_spec s (bdmResume s (s.pc - 1))
    have htmp2 : (enterBdm s (bdmResume s (s.pc - 1))).tmp2 = if read8 s .bgnd (s.pc - 1) = 0 then s.pc else s.pc - 1 := by
      rw [hform]
      simp only [bdmResume, BitVec.sub_add_cancel]
    have hsame : (enterBdm s (bdmResume s (s.pc - 1))).tmp2 = bdmResume s (s.pc - 1) := by rw [hform]
    refine ⟨?_, htmp2, fun he hbyte => ?_, hbdm, fun h => ?_, hon⟩
    · rw [hsame]
      exact hform
    · rw [htmp2, if_pos]
      rw [read8_none he, hbyte]
      rfl
    · rw [hsame]
      exact hoff h

end Sys2Proof.Machine
end

section
/-! PROOF. Interrupts (60_exceptions.md R660 to R672, 70_reset_and_hazards.md R740, 49_ccr_stop_misc.md R627 to R631):
which one is recognised, its entry, the I-clear delay, and the ends of the waiting and the stopped state. -/

namespace Sys2Proof.Machine

/-! ## Maskable sources and their priority (R660, R668) -/

theorem vectorBase_toNat (c : Config) :
    c.vectorBase.toNat = if c.variant = .hcs12 then 0xFF00 else 0xFFC0 := by
  rw [Config.vectorBase]
  cases c.variant <;> rfl

theorem isMaskableVector_iff (c : Config) (v : Word) : isMaskableVector c v = true ↔
    (v = 0xFFF2 ∨ v ∈ c.sources) ∧ v.toNat % 2 = 0 ∧
    (if c.variant = .hcs12 then 0xFF00 else 0xFFC0) ≤ v.toNat ∧ v.toNat ≤ 0xFFF2 := by
  have heven : (!v.getLsbD 0) = true ↔ v.toNat % 2 = 0 := by
    rw [Bool.not_eq_true', getLsbD_eq_decide, decide_eq_false_iff_not]
    omega
  have hbase : c.vectorBase ≤ v ↔ (if c.variant = .hcs12 then 0xFF00 else 0xFFC0) ≤ v.toNat := by
    rw [BitVec.le_def, vectorBase_toNat]
  have htop : v ≤ 0xFFF2 ↔ v.toNat ≤ 0xFFF2 := BitVec.le_def
  simp only [isMaskableVector, Bool.and_eq_true, Bool.or_eq_true, beq_iff_eq, List.contains_iff_mem, decide_eq_true_eq,
    heven, hbase, htop, and_assoc]

/-- The four ranks of R668: the promoted source, IRQ, the real-time interrupt, any other by its address. -/
theorem maskablePriority_cases (c : Config) (v : Word) :
    c.promoted = some v ∧ maskablePriority c v = 0x10002 ∨
    c.promoted ≠ some v ∧ v = 0xFFF2 ∧ maskablePriority c v = 0x10001 ∨
    c.promoted ≠ some v ∧ v ≠ 0xFFF2 ∧ c.rtiVector = some v ∧ maskablePriority c v = 0x10000 ∨
    c.promoted ≠ some v ∧ v ≠ 0xFFF2 ∧ c.rtiVector ≠ some v ∧ maskablePriority c v = v.toNat := by
  unfold maskablePriority
  split_ifs with hp hi hr
  · exact .inl ⟨hp, rfl⟩
  · exact .inr (.inl ⟨hp, hi, rfl⟩)
  · exact .inr (.inr (.inl ⟨hp, hi, hr, rfl⟩))
  · exact .inr (.inr (.inr ⟨hp, hi, hr, rfl⟩))

/-- No two vectors have one priority. -/
theorem maskablePriority_injective (c : Config) : Function.Injective (maskablePriority c) := by
  intro v w h
  have hv := v.isLt
  have hw := w.isLt
  rcases maskablePriority_cases c v with ⟨hv1, e⟩ | ⟨-, hv1, e⟩ | ⟨-, -, hv1, e⟩ | ⟨-, -, -, e⟩ <;>
    rcases maskablePriority_cases c w with ⟨hw1, f⟩ | ⟨-, hw1, f⟩ | ⟨-, -, hw1, f⟩ | ⟨-, -, -, f⟩ <;>
    rw [e, f] at h
  case inl.inl => exact Option.some.inj (hv1.symm.trans hw1)
  case inr.inl.inr.inl => exact hv1.trans hw1.symm
  case inr.inr.inl.inr.inr.inl => exact Option.some.inj (hv1.symm.trans hw1)
  case inr.inr.inr.inr.inr.inr => exact BitVec.eq_of_toNat_eq h
  all_goals omega

/-- The order of two maskable sources (R668). -/
theorem maskablePriority_lt (c : Config) {v w : Word} (hv : v.toNat ≤ 0xFFF2) (hne : v ≠ w) :
    (c.promoted = some v → maskablePriority c w < maskablePriority c v) ∧
    (c.promoted ≠ some v → c.promoted ≠ some w →
      (v = 0xFFF2 → maskablePriority c w < maskablePriority c v) ∧
      (c.rtiVector = some v → w ≠ 0xFFF2 → maskablePriority c w < maskablePriority c v) ∧
      (c.rtiVector ≠ some v → c.rtiVector ≠ some w → v ≠ 0xFFF2 → w < v →
        maskablePriority c w < maskablePriority c v)) := by
  have hlt := w.isLt
  have hone {o : Option Word} (hov : o = some v) : o ≠ some w := fun how =>
    hne (Option.some.inj (hov.symm.trans how))
  refine ⟨fun hp => ?_, fun hp hq => ⟨fun hi => ?_, fun hr hi => ?_, fun hr hq' hi hlow => ?_⟩⟩
  · have hw := hone hp
    have ev : maskablePriority c v = 0x10002 := by simp [maskablePriority, hp]
    rcases maskablePriority_cases c w with ⟨h, -⟩ | ⟨-, -, f⟩ | ⟨-, -, -, f⟩ | ⟨-, -, -, f⟩
    · exact absurd h hw
    all_goals omega
  · have ev : maskablePriority c v = 0x10001 := by rw [maskablePriority, if_neg hp, if_pos hi]
    rcases maskablePriority_cases c w with ⟨h, -⟩ | ⟨-, h, -⟩ | ⟨-, -, -, f⟩ | ⟨-, -, -, f⟩
    · exact absurd h hq
    · exact absurd (hi.trans h.symm) hne
    all_goals omega
  · have hw := hone hr
    have ev : 0x10000 ≤ maskablePriority c v := by
      simp only [maskablePriority, if_neg hp, hr, if_true]
      split <;> decide
    rcases maskablePriority_cases c w with ⟨h, -⟩ | ⟨-, h, -⟩ | ⟨-, -, h, -⟩ | ⟨-, -, -, f⟩
    · exact absurd h hq
    · exact absurd h hi
    · exact absurd h hw
    · omega
  · have ev : maskablePriority c v = v.toNat := by simp only [maskablePriority, if_neg hp, if_neg hi, if_neg hr]
    have hlow : w.toNat < v.toNat := BitVec.lt_def.1 hlow
    have hwi : w ≠ 0xFFF2 := by
      rintro rfl
      have : (0xFFF2 : Word).toNat = 0xFFF2 := rfl
      omega
    have ew : maskablePriority c w = w.toNat := by simp only [maskablePriority, if_neg hq, if_neg hwi, if_neg hq']
    omega

/-! ## The request of highest priority -/

/-- `v` is a maskable request of `rs` that none goes before. -/
def IsHighest (c : Config) (rs : List Word) (v : Word) : Prop :=
  v ∈ rs ∧ isMaskableVector c v = true ∧
    ∀ w ∈ rs, isMaskableVector c w = true → maskablePriority c w ≤ maskablePriority c v

theorem IsHighest.unique {c : Config} {rs : List Word} {v w : Word} (hv : IsHighest c rs v) (hw : IsHighest c rs w) :
    v = w := by
  obtain ⟨hvm, hvv, hvmax⟩ := hv
  obtain ⟨hwm, hwv, hwmax⟩ := hw
  exact maskablePriority_injective c (Nat.le_antisymm (hwmax v hvm hvv) (hvmax w hwm hwv))

theorem highestRequest_spec (c : Config) (rs : List Word) :
    (∃ v, highestRequest c rs = some v ∧ IsHighest c rs v) ∨
    highestRequest c rs = none ∧ ∀ v ∈ rs, isMaskableVector c v = false := by
  induction rs with
  | nil => exact .inr ⟨rfl, nofun⟩
  | cons u us ih =>
    simp only [highestRequest]
    cases hu : isMaskableVector c u with
    | false =>
      simp only [Bool.false_eq_true, if_false]
      rcases ih with ⟨v, e, hmem, hv, hmax⟩ | ⟨e, hnone⟩
      · refine .inl ⟨v, e, List.mem_cons_of_mem u hmem, hv, List.forall_mem_cons.2 ⟨fun h => ?_, hmax⟩⟩
        rw [hu] at h
        cases h
      · exact .inr ⟨e, List.forall_mem_cons.2 ⟨hu, hnone⟩⟩
    | true =>
      simp only [if_true]
      rcases ih with ⟨v, e, hmem, hv, hmax⟩ | ⟨e, hnone⟩
      · simp only [e]
        split
        · rename_i hlt
          exact .inl ⟨v, rfl, List.mem_cons_of_mem u hmem, hv,
            List.forall_mem_cons.2 ⟨fun _ => Nat.le_of_lt hlt, hmax⟩⟩
        · rename_i hge
          exact .inl ⟨u, rfl, List.mem_cons_self, hu, List.forall_mem_cons.2 ⟨fun _ => Nat.le_refl _,
            fun w hw hwv => Nat.le_trans (hmax w hw hwv) (Nat.le_of_not_lt hge)⟩⟩
      · simp only [e]
        refine .inl ⟨u, rfl, List.mem_cons_self, hu, List.forall_mem_cons.2 ⟨fun _ => Nat.le_refl _, fun w hw hwv => ?_⟩⟩
        rw [hnone w hw] at hwv
        cases hwv

theorem highestRequest_eq_some_iff {c : Config} {rs : List Word} {v : Word} :
    highestRequest c rs = some v ↔ IsHighest c rs v := by
  rcases highestRequest_spec c rs with ⟨w, e, hw⟩ | ⟨e, hnone⟩
  · rw [e, Option.some.injEq]
    exact ⟨fun h => h ▸ hw, fun h => hw.unique h⟩
  · rw [e]
    refine iff_of_false nofun fun ⟨hmem, hv, _⟩ => ?_
    rw [hnone v hmem] at hv
    cases hv

theorem highestRequest_eq_none_iff {c : Config} {rs : List Word} :
    highestRequest c rs = none ↔ ∀ v ∈ rs, isMaskableVector c v = false := by
  rcases highestRequest_spec c rs with ⟨w, e, hmem, hw, _⟩ | ⟨e, hnone⟩
  · rw [e]
    refine iff_of_false nofun fun h => ?_
    rw [h w hmem] at hw
    cases hw
  · exact iff_of_true e hnone

/-! ## Recognition (R665, R668, R740) -/

theorem recognised_xirq_iff (s : State) :
    recognised s = some (0xFFF4, true) ↔ s.pins.xirq = true ∧ s.flagX = false := by
  rw [recognised]
  split
  · rename_i h
    simpa using h
  · rename_i h
    rw [Bool.and_eq_true, Bool.not_eq_true'] at h
    refine iff_of_false ?_ h
    split
    · simp
    · nofun

theorem recognised_maskable_iff (s : State) (v : Word) : recognised s = some (v, false) ↔
    (s.pins.xirq = false ∨ s.flagX = true) ∧ s.flagI = false ∧ s.iDelay = false ∧
      IsHighest s.cfg s.pins.requests v := by
  have hxirq : ¬ (s.pins.xirq = true ∧ s.flagX = false) ↔ s.pins.xirq = false ∨ s.flagX = true := by
    rw [not_and_or, Bool.not_eq_true, Bool.not_eq_false]
  rw [recognised, ← hxirq, ← highestRequest_eq_some_iff]
  split
  · rename_i h
    rw [Bool.and_eq_true, Bool.not_eq_true'] at h
    exact iff_of_false (by simp) fun hn => hn.1 h
  · rename_i h
    rw [Bool.and_eq_true, Bool.not_eq_true'] at h
    split
    · rename_i hi
      rw [Bool.and_eq_true, Bool.not_eq_true', Bool.not_eq_true'] at hi
      simp [h, hi]
    · rename_i hi
      rw [Bool.and_eq_true, Bool.not_eq_true', Bool.not_eq_true'] at hi
      exact iff_of_false nofun fun ⟨_, hI, hd, _⟩ => hi ⟨hI, hd⟩

/-- Settles O14: the sources, XIRQ, the highest maskable request, and the order among those. -/
theorem recognitionFollowsMasksAndPriority : Obligations.RecognitionFollowsMasksAndPriority := by
  unfold Obligations.RecognitionFollowsMasksAndPriority
  refine ⟨isMaskableVector_iff, recognised_xirq_iff, recognised_maskable_iff, fun c v w hv _ hne => ?_⟩
  obtain ⟨-, -, -, htop⟩ := (isMaskableVector_iff c v).1 hv
  exact maskablePriority_lt c htop hne

/-! ## The step at a boundary without an event -/

/-- The state that the boundary of a step without an event starts from. -/
def unscheduled (s : State) : State := { s with schedule := s.schedule.tail }

theorem endTrace_of_not_tracing {t : State} (h : t.bdm.tracing = false) : endTrace t = t := by
  simp [endTrace, h]

section
variable {s : State} {v : Word} {isXirq : Bool}

/-- An interrupt goes before the instruction, a debug request before both. -/
theorem boundaryAction_interrupt {tags : List TagKind} (hrun : s.run = .running) (ho : ruleListOverlap s = false)
    (hreq : s.progress = .none → s.bdm.request = false) (hint : interruptHere s = some (v, isXirq)) :
    boundaryAction s tags = .ok (.interrupt v isXirq) := by
  have hbdm : (s.bdm.request && decide (s.progress = .none)) = false := by
    rw [Bool.and_eq_false_iff, decide_eq_false_iff_not]
    by_cases hp : s.progress = .none
    · exact .inl (hreq hp)
    · exact .inr hp
  simp only [boundaryAction, hrun, runningAction, ho, hbdm, hint, Bool.false_eq_true, if_false]

@[simp] theorem leaveInstruction_pc (s : State) : (leaveInstruction s).pc = s.pc := by
  have hpush (t : State) (w : Word) : (push16 t w).pc = t.pc := by rw [onlyStores_push16 t w]
  simp only [leaveInstruction, finished]
  split
  · rw [hpush, hpush, hpush]
  · unfold suspendRules
    split <;> rfl

/-- A step that takes an interrupt: the instruction in progress is left, then the exception is taken. -/
theorem step_interrupt (hev : s.schedule.headD [] = []) (hrun : s.run = .running) (htr : s.bdm.tracing = false)
    (ho : ruleListOverlap s = false) (hreq : s.progress = .none → s.bdm.request = false)
    (hr : recognised s = some (v, isXirq)) :
    step s = .next (closeStep (takeException (leaveInstruction (unscheduled s)) v s.pc isXirq)) := by
  have hint : interruptHere (unscheduled s) = some (v, isXirq) := by
    rw [interruptHere, if_neg (by simpa [unscheduled] using htr)]
    exact hr
  have ha : boundaryAction (unscheduled s) [] = .ok (.interrupt v isXirq) :=
    boundaryAction_interrupt hrun ho hreq hint
  have hpc : (leaveInstruction (unscheduled s)).pc = s.pc := leaveInstruction_pc _
  rw [step_of_no_event hev]
  change mapNext closeStep (boundary (unscheduled s) []) = _
  rw [boundary_ok ha, prepare, act, takeInterrupt, hpc]
  rfl

/-! ## Entry (R670, R671, 45_fuzzy_minmax_mac_tbl.md R414, R417) -/

/-- What an interrupt leaves of REV and REVW: the record of their resumption. -/
theorem leaveInstruction_of_ne_wav (h : s.progress ≠ .wav) : leaveInstruction s =
    { s with progress := .none, suspended := if s.progress = .none then s.suspended
               else ⟨s.pc, s.a, s.x, s.y, s.flagV, s.sp, s.outputs, s.consumed⟩ :: s.suspended } := by
  rw [leaveInstruction, if_neg h, suspendRules]
  cases hp : s.progress with
  | wav => exact absurd hp h
  | none | rev | revw => simp [finished]

/-- The addresses of the three sums of WAV. -/
def sumAddresses (s : State) : List Word := [s.sp - 6, s.sp - 5, s.sp - 4, s.sp - 3, s.sp - 2, s.sp - 1]

/-- What an interrupt leaves of WAV: its three sums stacked, TMP1 lowest. -/
theorem leaveInstruction_of_wav (h : s.progress = .wav)
    (hpage : ∀ k < 6, ¬ isPageRegister s (s.sp - 6 + BitVec.ofNat 16 k)) :
    Wrote s (leaveInstruction s) ((sumAddresses s).zip (bytesOfWords [s.tmp1, s.tmp2, s.tmp3])) ∧
    OnlyStores { s with progress := .none, sp := s.sp - 6 } (leaveInstruction s) := by
  have hs : s.sp = s.sp - 6 + 6 := (BitVec.sub_add_cancel s.sp 6).symm
  have haddresses : sumAddresses s =
      [s.sp - 6, s.sp - 6 + 1, s.sp - 6 + 2, s.sp - 6 + 3, s.sp - 6 + 4, s.sp - 6 + 5] := by
    simp only [sumAddresses, List.cons.injEq, and_true, true_and]
    refine ⟨?_, ?_, ?_, ?_, ?_⟩ <;> bv_omega
  have hleave : leaveInstruction s = finished (push16 (push16 (push16 s s.tmp3) s.tmp2) s.tmp1) := by
    rw [leaveInstruction, if_pos h]
  rw [haddresses, hleave]
  constructor
  · rw [bytesOfWords_cons, bytesOfWords_cons, bytesOfWords_cons]
    generalize s.sp - 6 = q at *
    have h0 : ¬ isPageRegister s q := by simpa using hpage 0 (by decide)
    have h1 : ¬ isPageRegister s (q + 1) := hpage 1 (by decide)
    have h2 : ¬ isPageRegister s (q + 2) := hpage 2 (by decide)
    have h3 : ¬ isPageRegister s (q + 3) := hpage 3 (by decide)
    have h4 : ¬ isPageRegister s (q + 4) := hpage 4 (by decide)
    have h5 : ¬ isPageRegister s (q + 5) := hpage 5 (by decide)
    have w3 := (Wrote.nil s).push16 (p := q + 4) (q := q + 5) (by rw [hs]; bv_omega) (by bv_omega) h4 h5
      List.not_mem_nil List.not_mem_nil s.tmp3
    have w2 := w3.push16 (p := q + 2) (q := q + 3) (by simp only [push16_sp, hs]; bv_omega) (by bv_omega) h2 h3
      (by simp) (by simp) s.tmp2
    have w1 := w2.push16 (p := q) (q := q + 1) (by simp only [push16_sp, hs]; bv_omega) (by bv_omega) h0 h1
      (by simp) (by simp) s.tmp1
    have w := w1.of_sameMemory (r := finished (push16 (push16 (push16 s s.tmp3) s.tmp2) s.tmp1)) ⟨rfl, rfl, rfl, rfl, rfl, rfl⟩
    refine w.of_mem_iff fun p => iff_of_eq ?_
    simp only [List.zip_cons_cons, List.zip_nil_left, List.nil_append, List.cons_append, List.mem_cons,
      List.not_mem_nil, or_false]
    ac_rfl
  · have hsp : s.sp - 2#16 - 2#16 - 2#16 = s.sp - 6#16 := by bv_omega
    rw [onlyStores_iff]
    simp [finished, push16_eq, hsp]

/-- Settles O15: the step takes an exception from the state in which the instruction in progress has been left. -/
theorem interruptEntryStacksTheFrame : Obligations.InterruptEntryStacksTheFrame := by
  unfold Obligations.InterruptEntryStacksTheFrame
  refine ⟨fun s v isXirq hev hrun htr hprog ho hr => ?_, fun s v isXirq hev hrun htr hwav hr hpage => ?_⟩
  · have hreq (hp : s.progress = .none) : s.bdm.request = false := by
      rcases hprog with ⟨-, h⟩ | h | h
      · exact h
      · rw [hp] at h
        cases h
      · rw [hp] at h
        cases h
    have hne : (unscheduled s).progress ≠ .wav := by
      rcases hprog with ⟨h, -⟩ | h | h <;> simp [unscheduled, h]
    refine ⟨_, step_interrupt hev hrun htr ho hreq hr, ?_⟩
    rw [leaveInstruction_of_ne_wav hne]
    exact entered_takeException _ v s.pc isXirq
  · have ho : ruleListOverlap s = false := by rw [ruleListOverlap, hwav]
    have hsame : SameMemory s (unscheduled s) := ⟨rfl, rfl, rfl, rfl, rfl, rfl⟩
    obtain ⟨hwrote, hstores⟩ := leaveInstruction_of_wav (s := unscheduled s) hwav fun k hk =>
      (hsame.isPageRegister _).not.2 (hpage k hk)
    have hw := hwrote.from_sameMemory hsame
    have hnotPage (g : Target) (hg : g.isPage) : ∀ a ∈ sumAddresses s, locate s a ≠ g :=
      fun a ha e => hw.noPage a ha (by rw [isPageRegister_iff, e]; exact hg)
    obtain ⟨-, hp, hd, he, -⟩ := id hw.only
    rw [OnlyStores, hp (hnotPage _ (.inl rfl)), hd (hnotPage _ (.inr (.inl rfl))),
      he (hnotPage _ (.inr (.inr rfl)))] at hstores
    exact ⟨_, _, step_interrupt hev hrun htr ho (fun h => by rw [hwav] at h; cases h) hr, hw.storedBytes, hstores,
      hw.only, entered_takeException _ v s.pc isXirq⟩

end

end Sys2Proof.Machine
end

section
/-! PROOF. O16 and O17: the end of an instruction and its I-clear delay (70_reset_and_hazards.md R740), and how the
waiting and the stopped states and active BDM end or stay (49_ccr_stop_misc.md R627 to R631). -/

namespace Sys2Proof.Machine

/-! ## The I-clear delay -/

theorem isRti_eq_decide (i : Instr) : isRti i = decide (i = .rti) := by
  cases i <;> simp [isRti]

/-- While the delay stands no maskable request is recognised. -/
theorem recognised_ne_maskable_of_iDelay {s : State} (h : s.iDelay = true) (v : Word) :
    recognised s ≠ some (v, false) := by
  intro hr
  obtain ⟨-, -, hd, -⟩ := (recognised_maskable_iff s v).1 hr
  rw [h] at hd
  cases hd

/-- Settles O16: outside a TRACE1 the end of an instruction is the note of the delay. -/
theorem clearingTheIMaskDelaysMaskableInterrupts : Obligations.ClearingTheIMaskDelaysMaskableInterrupts := by
  unfold Obligations.ClearingTheIMaskDelaysMaskableInterrupts
  intro s i n t u hev hrun hreq htr hprog hint hf hstale hexec hnone hstep
  have httr : t.bdm.tracing = false :=
    (exec_tracing i { s with schedule := s.schedule.tail, pc := s.pc + BitVec.ofNat 16 n } t hexec).trans htr
  rw [step_instr hev hrun hreq hprog hint hf hstale, hexec] at hstep
  have hu : u = closeStep (endTrace (noteIDelay s.flagI (isRti i) t)) := by
    rw [mapNext, mapNext, retire] at hstep
    exact (Host.Outcome.next.inj hstep).symm
  have hdelay : u.iDelay = (s.flagI && !t.flagI && decide (i ≠ .rti)) := by
    rw [hu, retire_of_not_tracing httr, closeStep, if_pos hnone, isRti_eq_decide, decide_not]
  exact ⟨hdelay, recognised_ne_maskable_of_iDelay⟩

/-! ## The step of a suspended state -/

/-- The step of a state that runs no instruction: the look at its end, on the state without its event list. -/
theorem step_of_suspended {s : State} {a : Action} {t : State} (hev : s.schedule.headD [] = [])
    (ha : boundaryAction (unscheduled s) [] = .ok a) (hact : act (prepare (unscheduled s) a) a = .next t)
    (hfinish : finish (unscheduled s) a t = t) : step s = .next (closeStep t) := by
  rw [step_of_no_event hev]
  change mapNext closeStep (boundary (unscheduled s) []) = _
  rw [boundary_ok ha, hact, mapNext, mapNext, hfinish]

theorem wakeWaiting_tracing (s : State) : (wakeWaiting s).bdm.tracing = s.bdm.tracing := by
  rw [wakeWaiting]
  split
  · rw [enterHandler_eq, dropTemporaries]
  · rfl

theorem wakeStopped_tracing (s : State) : (wakeStopped s).bdm.tracing = s.bdm.tracing := by
  have henter (v : Word) (isXirq : Bool) : (enterHandler s v isXirq).bdm.tracing = s.bdm.tracing := by
    rw [enterHandler_eq, dropTemporaries]
  rw [wakeStopped]
  split_ifs
  · rfl
  · exact henter _ _
  · rfl
  · split
    · exact henter _ _
    · rfl

theorem step_waiting {s : State} (hev : s.schedule.headD [] = []) (htr : s.bdm.tracing = false)
    (hrun : s.run = .waiting) : step s = .next (closeStep (wakeWaiting (unscheduled s))) :=
  step_of_suspended (a := .wakeWaiting) hev (by simp only [boundaryAction, unscheduled, hrun]) rfl
    (endTrace_of_not_tracing ((wakeWaiting_tracing _).trans htr))

theorem step_stopped {s : State} (hev : s.schedule.headD [] = []) (htr : s.bdm.tracing = false)
    (hrun : s.run = .stopped) : step s = .next (closeStep (wakeStopped (unscheduled s))) :=
  step_of_suspended (a := .wakeStopped) hev (by simp only [boundaryAction, unscheduled, hrun]) rfl
    (endTrace_of_not_tracing ((wakeStopped_tracing _).trans htr))

/-- Active BDM stays without a command. -/
theorem step_bdmActive {s : State} (hev : s.schedule.headD [] = []) (hrun : s.run = .bdmActive) :
    step s = .next (closeStep (unscheduled s)) :=
  step_of_suspended (a := .idle) hev (by simp only [boundaryAction, unscheduled, hrun]) rfl rfl

/-! ## How they end -/

/-- The handler, entered without a frame: the masks are set, the temporaries lost and the PC is the vector's. -/
def HandlerEntered (s t : State) (v : Word) (isXirq : Bool) : Prop :=
  CcrIs t s.flagS (s.flagX || isXirq) s.flagH true s.flagN s.flagZ s.flagV s.flagC ∧
  t = { s with schedule := s.schedule.tail, budget := none, stores := [], earlier := none, free := s.free + 1,
               run := .running, ccr := t.ccr, pc := read16 s .vector v, stale := [], tmp1 := t.tmp1,
               tmp2 := t.tmp2, tmp3 := t.tmp3 }

theorem handlerEntered_enterHandler (s : State) (v : Word) (isXirq : Bool) :
    HandlerEntered s (closeStep (enterHandler (unscheduled s) v isXirq)) v isXirq := by
  have hread : read16 (unscheduled s) .vector v = read16 s .vector v :=
    read16_congr (s := s) (t := unscheduled s) rfl rfl rfl rfl rfl rfl rfl rfl .vector v
  rw [enterHandler_eq, hread]
  exact ⟨ccrIs_maskInterrupts s isXirq, rfl⟩

/-- The sources that end a STOP. -/
theorem mem_filter_endsStop {s : State} {v : Word} : v ∈ s.pins.requests.filter (endsStop s.cfg) ↔
    v ∈ s.pins.requests ∧ (v = 0xFFF2 ∨ v ∈ s.cfg.stopWake) := by
  rw [List.mem_filter, endsStop, Bool.or_eq_true, beq_iff_eq, List.contains_iff_mem]

/-- Settles O17: one look at the end of the state per step; each case of that look is one clause. -/
theorem suspendedStatesEndAsTheTransitionTableSays : Obligations.SuspendedStatesEndAsTheTransitionTableSays := by
  unfold Obligations.SuspendedStatesEndAsTheTransitionTableSays
  refine ⟨fun s hev htr hrun => ⟨fun hr => ?_, fun v isXirq hr => ?_⟩,
    fun s hev htr hrun => ⟨fun hx hX => ?_, fun hx hX => ?_, fun v hx hI hv hmax => ?_, fun hx hno => ?_⟩,
    fun s hev hrun => step_bdmActive hev hrun⟩
  · have hr' : recognised (unscheduled s) = none := hr
    rw [step_waiting hev htr hrun, wakeWaiting, hr']
    rfl
  · have hr' : recognised (unscheduled s) = some (v, isXirq) := hr
    rw [step_waiting hev htr hrun, wakeWaiting, hr']
    exact ⟨_, rfl, handlerEntered_enterHandler s v isXirq⟩
  · have hx' : (unscheduled s).pins.xirq = true := hx
    have hX' : (unscheduled s).flagX = true := hX
    rw [step_stopped hev htr hrun, wakeStopped, if_pos hx', if_pos hX']
    rfl
  · have hx' : (unscheduled s).pins.xirq = true := hx
    have hX' : ¬ (unscheduled s).flagX = true := Bool.eq_false_iff.1 hX
    rw [step_stopped hev htr hrun, wakeStopped, if_pos hx', if_neg hX']
    have h := handlerEntered_enterHandler s 0xFFF4 true
    rw [HandlerEntered, Bool.or_true] at h
    exact ⟨_, rfl, h⟩
  · have hx' : ¬ (unscheduled s).pins.xirq = true := Bool.eq_false_iff.1 hx
    have hI' : ¬ (unscheduled s).flagI = true := Bool.eq_false_iff.1 hI
    obtain ⟨hmem, hmask, hends⟩ := hv
    have hhigh : highestRequest (unscheduled s).cfg
        ((unscheduled s).pins.requests.filter (endsStop (unscheduled s).cfg)) = some v := by
      refine highestRequest_eq_some_iff.2 ⟨mem_filter_endsStop.2 ⟨hmem, hends⟩, hmask, fun w hw hwmask => ?_⟩
      obtain ⟨hwmem, hwends⟩ := mem_filter_endsStop.1 hw
      exact hmax w ⟨hwmem, hwmask, hwends⟩
    rw [step_stopped hev htr hrun, wakeStopped, if_neg hx', if_neg hI', hhigh]
    have h := handlerEntered_enterHandler s v false
    rw [HandlerEntered, Bool.or_false] at h
    exact ⟨_, rfl, h⟩
  · have hx' : ¬ (unscheduled s).pins.xirq = true := Bool.eq_false_iff.1 hx
    rw [step_stopped hev htr hrun, wakeStopped, if_neg hx']
    split_ifs with hI
    · rfl
    · have hnone : highestRequest (unscheduled s).cfg
          ((unscheduled s).pins.requests.filter (endsStop (unscheduled s).cfg)) = none := by
        refine highestRequest_eq_none_iff.2 fun v hv => ?_
        obtain ⟨hmem, hends⟩ := mem_filter_endsStop.1 hv
        rcases hno with h | h
        · exact absurd h hI
        · exact Bool.eq_false_iff.2 fun hmask => h v ⟨hmem, hmask, hends⟩
      rw [hnone]
      rfl

end Sys2Proof.Machine
end

section
/-! PROOF. O8: a reset is taken in every run state, through the vector of its source (60_exceptions.md R668, R690,
R691). -/

namespace Sys2Proof.Machine

/-! ## Stores made again -/

theorem SameMemory.writeTarget {s t : State} (h : SameMemory s t) (g : Target) (v : Byte) :
    SameMemory (Machine.writeTarget s g v) (Machine.writeTarget t g v) := by
  obtain ⟨hm, hc, hw, hp, hd, he⟩ := h
  obtain ⟨_, es⟩ := writeTarget_eq s g v
  obtain ⟨_, et⟩ := writeTarget_eq t g v
  rw [es, et]
  simp only [SameMemory, hm, hc, hw, hp, hd, he, and_self]

theorem SameMemory.write16 {s t : State} (h : SameMemory s t) (a v : Word) :
    SameMemory (Machine.write16 s a v) (Machine.write16 t a v) := by
  rw [Machine.write16, Machine.write16, h.locate, h.locate]
  exact (h.writeTarget _ _).writeTarget _ _

/-- What stores made again do to memory depends on memory and the map alone. -/
theorem SameMemory.applyStores {s t : State} (h : SameMemory s t) (es : List Store) :
    SameMemory (Machine.applyStores s es) (Machine.applyStores t es) := by
  induction es generalizing s t with
  | nil => exact h
  | cons e es ih =>
    refine ih ?_
    cases e with
    | byte a v => exact h.write8 a v
    | word a v => exact h.write16 a v
    | page v =>
      obtain ⟨hm, hc, hw, -, hd, he⟩ := h
      exact ⟨hm, hc, hw, by rw [applyStore, applyStore, setPpage, setPpage, hc], hd, he⟩

/-! ## The reset -/

theorem resetStatus_enable (s : State) : (resetStatus s).getLsbD 7 = (s.cfg.mode != .normal) := by
  simp [resetStatus]

theorem resetStatus_of_ne {s : State} {k : Nat} (hk : k = 5 ∨ k = 6) : (resetStatus s).getLsbD k = false := by
  have h18 : (0x18 : Byte).getLsbD k = false := by rcases hk with rfl | rfl <;> decide
  rw [resetStatus, putBit_getLsbD_of_ne _ _ (by omega) (by omega), BitVec.getLsbD_and, h18, Bool.and_false]

/-- What a reset leaves, in every mode (R690, R691, R701, 10_state.md R45). -/
structure ResetTaken (s t : State) (target : Word) : Prop where
  masks : t.flagS = true ∧ t.flagX = true ∧ t.flagI = true
  mem : t.mem = s.mem
  pins : t.pins = s.pins
  schedule : t.schedule = s.schedule
  windows : (t.windows.pwen || t.windows.dwen || t.windows.ewen) = false
  progress : t.progress = .none
  iDelay : t.iDelay = false
  enabled : t.bdm.status.getLsbD 7 = (s.cfg.mode != .normal)
  tagsOff : tagEnableBit t = false
  running : s.cfg.mode ≠ .specialSingleChip → t.pc = target ∧ t.run = .running ∧ bdmActiveBit t = false
  active : s.cfg.mode = .specialSingleChip → t.run = .bdmActive ∧ bdmActiveBit t = true ∧ t.tmp2 = target

theorem resetTaken_takeReset (s : State) (src : ResetSource) :
    ResetTaken s (takeReset s src) (read16 s .vector (resetVector src)) := by
  have hbit6 : (resetStatus s).getLsbD 6 = false := resetStatus_of_ne (.inr rfl)
  have hmasks (v : Byte) : (v ||| 0xD0).getLsbD 7 = true ∧ (v ||| 0xD0).getLsbD 6 = true ∧
      (v ||| 0xD0).getLsbD 4 = true := by
    simp
  by_cases hmode : s.cfg.mode = .specialSingleChip
  · have hon : (resetStatus s).getLsbD 7 = true := by rw [resetStatus_enable, hmode]; rfl
    rw [takeReset, if_pos hmode]
    set u := jump _ (read16 s .vector (resetVector src)) with hu
    obtain ⟨heq, -, -, hactive⟩ := enterBdm_spec u u.pc
    obtain ⟨-, hrun, hactiveBit, htagBit, hkeep⟩ := hactive hon
    exact {
      masks := by rw [heq]; exact hmasks _
      mem := by rw [heq]; rfl
      pins := by rw [heq]; rfl
      schedule := by rw [heq]; rfl
      windows := by rw [heq]; rfl
      progress := by rw [heq]; rfl
      iDelay := by rw [heq]; rfl
      enabled := (hkeep 7 (by decide) (by decide)).trans (resetStatus_enable s)
      tagsOff := htagBit
      running := fun hne => absurd hmode hne
      active := fun _ => ⟨hrun, hactiveBit, by rw [heq]; rfl⟩ }
  · rw [takeReset, if_neg hmode]
    exact {
      masks := hmasks _
      mem := rfl
      pins := rfl
      schedule := rfl
      windows := rfl
      progress := rfl
      iDelay := rfl
      enabled := resetStatus_enable s
      tagsOff := resetStatus_of_ne (.inl rfl)
      running := fun _ => ⟨rfl, rfl, resetStatus_of_ne (.inr rfl)⟩
      active := fun h => absurd h hmode }

/-! ## The step with a reset -/

/-- A reset event is taken at the boundary. -/
theorem step_reset {s : State} {src : ResetSource} {later : List (List Event)}
    (hs : s.schedule = [.reset src] :: later) :
    step s = .next (closeStep (takeReset { s with schedule := later } src)) := by
  simp [step, oneStep, arrivals, hs, arriveEvents, arriveEvent, higherReset]

/-- A reset inside the action is taken after the first stores of the action. -/
theorem step_resetWithin {s : State} {src : ResetSource} {later : List (List Event)} {n : Nat}
    (hs : s.schedule = [.resetWithin n src] :: later) :
    step s = .next (closeStep (resetWithin { s with schedule := later } [] n src)) := by
  simp [step, oneStep, arrivals, hs, arriveEvents, arriveEvent, stepAt, mapNext]

/-- Of two resets in one step the second counts only where its priority is higher. -/
theorem step_two_resets {s : State} {r q : ResetSource} {later : List (List Event)}
    (hs : s.schedule = [.reset r, .reset q] :: later) :
    step s = .next (closeStep (takeReset { s with schedule := later }
      (if resetPriority q < resetPriority r then q else r))) := by
  simp [step, oneStep, arrivals, hs, arriveEvents, arriveEvent, higherReset]

/-- Where the PC of the reset goes: into TMP2 in special single-chip mode. -/
theorem ResetTaken.target_eq {s t : State} {target : Word} (h : ResetTaken s t target) :
    (if s.cfg.mode = .specialSingleChip then t.tmp2 else t.pc) = target := by
  split_ifs with hmode
  · exact (h.active hmode).2.2
  · exact (h.running hmode).1

/-- The modes, one by one. -/
theorem ResetTaken.modes {s t : State} {target : Word} (h : ResetTaken s t target) :
    (s.cfg.mode ≠ .specialSingleChip → t.pc = target) ∧
    (s.cfg.mode = .normal → t.run = .running ∧ t.bdm.status.getLsbD 7 = false ∧ bdmActiveBit t = false) ∧
    (s.cfg.mode = .peripheral → t.run = .running ∧ t.bdm.status.getLsbD 7 = true ∧ bdmActiveBit t = false) ∧
    (s.cfg.mode = .specialSingleChip →
      t.run = .bdmActive ∧ t.bdm.status.getLsbD 7 = true ∧ bdmActiveBit t = true ∧ t.tmp2 = target) ∧
    tagEnableBit t = false := by
  have henabled := h.enabled
  refine ⟨fun hne => (h.running hne).1, fun hmode => ?_, fun hmode => ?_, fun hmode => ?_, h.tagsOff⟩ <;>
    rw [hmode] at henabled
  · obtain ⟨-, hrun, hbit⟩ := h.running (by rw [hmode]; decide)
    exact ⟨hrun, henabled, hbit⟩
  · obtain ⟨-, hrun, hbit⟩ := h.running (by rw [hmode]; decide)
    exact ⟨hrun, henabled, hbit⟩
  · obtain ⟨hrun, hbit, htmp2⟩ := h.active hmode
    exact ⟨hrun, henabled, hbit, htmp2⟩

/-- The step in which a reset is taken from the memory `m`. -/
theorem resetTaken_closeStep (s : State) (later : List (List Event)) (m : List Host.Cell) (src : ResetSource) :
    ResetTaken { s with schedule := later, mem := m } (closeStep (takeReset { s with schedule := later, mem := m } src))
      (read16 { s with mem := m } .vector (resetVector src)) := by
  have hread : read16 { s with mem := m } .vector (resetVector src) =
      read16 { s with schedule := later, mem := m } .vector (resetVector src) :=
    read16_congr (s := { s with schedule := later, mem := m }) (t := { s with mem := m })
      rfl rfl rfl rfl rfl rfl rfl rfl _ _
  have h := resetTaken_takeReset { s with schedule := later, mem := m } src
  rw [hread]
  exact ⟨h.masks, h.mem, h.pins, h.schedule, h.windows, h.progress, h.iDelay, h.enabled, h.tagsOff, h.running, h.active⟩

/-- Settles O8: in each of its two forms the reset is `takeReset` on the memory that the step has left it. -/
theorem resetIsTakenInEveryState : Obligations.ResetIsTakenInEveryState := by
  unfold Obligations.ResetIsTakenInEveryState
  refine ⟨fun s src later e n hs he => ?_, fun s r q later hs => ?_⟩
  · obtain ⟨m, hstep, hplain, hwithin⟩ : ∃ m,
        step s = .next (closeStep (takeReset { s with schedule := later, mem := m } src)) ∧
        (e = .reset src → m = s.mem) ∧
        (e = .resetWithin n src → m = (applyStores s ((storesOf { s with schedule := later } []).take n)).mem) := by
      rcases he with rfl | rfl
      · exact ⟨s.mem, step_reset hs, fun _ => rfl, nofun⟩
      · have hsame : SameMemory s { s with schedule := later } := ⟨rfl, rfl, rfl, rfl, rfl, rfl⟩
        obtain ⟨hstored, -⟩ := hsame.applyStores ((storesOf { s with schedule := later } []).take n)
        refine ⟨(applyStores { s with schedule := later } ((storesOf { s with schedule := later } []).take n)).mem,
          ?_, nofun, fun _ => hstored⟩
        rw [step_resetWithin hs, resetWithin]
    have h := resetTaken_closeStep s later m src
    rw [hstep]
    generalize closeStep (takeReset { s with schedule := later, mem := m } src) = t at h
    obtain ⟨hS, hX, hI⟩ := h.masks
    have hmem : t.mem = m := h.mem
    have hmodes := h.modes
    refine ⟨t, rfl, hS, hX, hI, fun he => hmem.trans (hplain he), fun he => hmem.trans (hwithin he), h.pins, h.schedule,
      h.windows, h.progress, h.iDelay, ?_⟩
    rw [hmem]
    cases src <;> exact hmodes
  · rw [step_two_resets hs]
    have h := (resetTaken_closeStep s later s.mem (if resetPriority q < resetPriority r then q else r)).target_eq
    generalize closeStep _ = t at h
    refine ⟨t, rfl, fun hhigh => h.trans ?_, fun hhigh => h.trans ?_⟩
    · rcases hhigh with rfl | rfl | rfl | rfl
      · rfl
      · rfl
      · cases r <;> rfl
      · cases r <;> rfl
    · rcases hhigh with ⟨rfl, rfl⟩ | ⟨rfl, rfl⟩ <;> rfl

end Sys2Proof.Machine
end

section
/-! PROOF. O57, the firmware commands: those that are refused outside active BDM, and what each does in it
(60_exceptions.md R704, R706). -/

namespace Sys2Proof.Machine

/-! ## Firmware commands (R706) -/

/-- A firmware command begins: its opcode is latched and no valid data is in the shift register. -/
def firmwareStart (s : State) (op : Byte) : State :=
  { s with bdm := { s.bdm with instr := op, status := putBit s.bdm.status 4 false } }

section
variable {s : State} {op : Byte}

/-- A command is a firmware command where it is none of R705. -/
theorem runCommand_firmware (hop : isFirmwareCommand op = true) (addr data : Word) : runCommand s op addr data =
    if s.run = .bdmActive then firmwareCommand { s with bdm := { s.bdm with instr := op } } op data
    else .error .bdmNotActive := by
  have hne (c : Byte) (hc : isFirmwareCommand c = false) : op ≠ c := by
    rintro rfl
    rw [hop] at hc
    cases hc
  rw [runCommand, if_neg (hne 0x90 rfl), if_neg (hne 0xE4 rfl), if_neg (hne 0xE0 rfl), if_neg (hne 0xEC rfl),
    if_neg (hne 0xE8 rfl), if_neg (hne 0xC4 rfl), if_neg (hne 0xC0 rfl), if_neg (hne 0xCC rfl), if_neg (hne 0xC8 rfl),
    if_pos hop]

theorem bdmCommand_firmware (hrun : s.run = .bdmActive) (hop : isFirmwareCommand op = true) (addr data : Word) :
    bdmCommand s op addr data = firmwareCommand (firmwareStart s op) op data := by
  rw [bdmCommand, if_neg (by rw [hrun]; decide), runCommand_firmware hop, if_pos (by exact hrun)]
  rfl

/-- Where BDM is not active a firmware command is refused. -/
theorem bdmCommand_not_active (hrun : s.run = .running ∨ s.run = .waiting) (hop : isFirmwareCommand op = true)
    (addr data : Word) : bdmCommand s op addr data = .error .bdmNotActive := by
  have hne : s.run ≠ .stopped ∧ (beginCommand s).run ≠ .bdmActive := by
    rcases hrun with h | h <;> rw [beginCommand_run, h] <;> decide
  rw [bdmCommand, if_neg hne.1, runCommand_firmware hop, if_neg hne.2]

/-- What leaving BDM does (R704, R706): the status keeps all bits but BDMACT. -/
theorem leaveBdm_spec (s : State) :
    let t := leaveBdm s
    t.run = .running ∧ t.pc = s.tmp2 ∧ t.bdm.status.getLsbD 6 = false ∧ LoadsCcr s t s.bdm.ccr ∧
    t.bdm.tracing = s.bdm.tracing ∧ (∀ k, k ≠ 6 → t.bdm.status.getLsbD k = s.bdm.status.getLsbD k) ∧
    t = { s with ccr := t.ccr, pc := t.pc, run := t.run, bdm := t.bdm, stale := [], tmp1 := t.tmp1, tmp2 := t.tmp2,
                 tmp3 := t.tmp3 } :=
  ⟨rfl, rfl, by simp [leaveBdm, jump], loadsCcr_protectX s _ _ rfl, rfl,
    fun _ hk => putBit_getLsbD_of_ne _ _ (by decide) hk, rfl⟩

/-- What GO, TRACE1 and TAGGO do, one of them being `op`. -/
def LeavesActiveBdm (s t : State) (op : Byte) : Prop :=
  t.run = .running ∧ t.pc = s.tmp2 ∧
    bdmActiveBit t = false ∧ t.bdm.status.getLsbD 7 = s.bdm.status.getLsbD 7 ∧ LoadsCcr s t s.bdm.ccr ∧
    t.bdm.tracing = (s.bdm.tracing || decide (op = 0x10)) ∧
    t.bdm.status.getLsbD 3 = (s.bdm.status.getLsbD 3 || decide (op = 0x10)) ∧
    tagEnableBit t = (tagEnableBit s || decide (op = 0x18)) ∧
    t = { s with ccr := t.ccr, pc := t.pc, run := t.run, bdm := t.bdm, stale := [], tmp1 := t.tmp1, tmp2 := t.tmp2,
                 tmp3 := t.tmp3 }

/-- Leaving BDM from a state that differs from `s` in the BDM registers alone. -/
theorem leavesActiveBdm_leaveBdm {s : State} {op : Byte} {b : Bdm} (hccr : b.ccr = s.bdm.ccr)
    (htracing : b.tracing = (s.bdm.tracing || decide (op = 0x10)))
    (h7 : b.status.getLsbD 7 = s.bdm.status.getLsbD 7)
    (h3 : b.status.getLsbD 3 = (s.bdm.status.getLsbD 3 || decide (op = 0x10)))
    (h5 : b.status.getLsbD 5 = (s.bdm.status.getLsbD 5 || decide (op = 0x18))) :
    LeavesActiveBdm s (leaveBdm { s with bdm := b }) op := by
  obtain ⟨hrun, hpc, hbit, hloads, htr, hkeep, heq⟩ := leaveBdm_spec { s with bdm := b }
  refine ⟨hrun, hpc, hbit, (hkeep 7 (by decide)).trans h7, hccr ▸ hloads, htr.trans htracing,
    (hkeep 3 (by decide)).trans h3, (hkeep 5 (by decide)).trans h5, heq⟩

/-- GO, TRACE1 and TAGGO. -/
theorem leavesActiveBdm_of_command (hrun : s.run = .bdmActive) (addr data : Word)
    (hop : op ∈ [(0x08 : Byte), 0x10, 0x18]) :
    ∃ t, bdmCommand s op addr data = .ok t ∧ LeavesActiveBdm s t op := by
  simp only [List.mem_cons, List.not_mem_nil, or_false] at hop
  rcases hop with rfl | rfl | rfl <;>
    exact ⟨_, bdmCommand_firmware hrun rfl addr data, leavesActiveBdm_leaveBdm rfl (by simp [firmwareStart])
      (by simp [firmwareStart]) (by simp [firmwareStart]) (by simp [firmwareStart])⟩

/-- The commands that send a register's value to the host: SDV is the one bit of the status that changes. -/
theorem readCommand_spec (hrun : s.run = .bdmActive) (hop : isFirmwareCommand op = true) {v : Word} {data : Word}
    (hread : firmwareCommand (firmwareStart s op) op data = .ok (setShift (firmwareStart s op) v)) (addr : Word) :
    ∃ t, bdmCommand s op addr data = .ok t ∧
      t = { s with bdm := { s.bdm with instr := op, shift := v, status := t.bdm.status } } ∧
      ∀ k, t.bdm.status.getLsbD k = (s.bdm.status.getLsbD k || decide (k = 4)) := by
  refine ⟨_, (bdmCommand_firmware hrun hop addr data).trans hread, rfl, fun k => ?_⟩
  by_cases hk : k = 4 <;> simp [firmwareStart, putBit_getLsbD, hk]

end

/-! ## Memory below the BDM resources -/

section
variable {a : Word}

theorem word_below (ha : a.toNat < 0xFEFF) : a < 0xFF00 ∧ a + 1 < 0xFF00 := by bv_omega

theorem read16InMap_below (ha : a.toNat < 0xFEFF) (s : State) (d : Draw) : read16InMap s d a = read16 s d a := by
  obtain ⟨h0, h1⟩ := word_below ha
  rw [read16InMap, read8InMap_below h0, read8InMap_below h1, read16]

theorem write8InMap_below (ha : a < 0xFF00) (s : State) (v : Byte) : write8InMap s a v = write8 s a v := by
  rw [write8InMap, locateInMap_below ha]
  rfl

theorem write16InMap_below (ha : a.toNat < 0xFEFF) (s : State) (v : Word) : write16InMap s a v = write16 s a v := by
  obtain ⟨h0, h1⟩ := word_below ha
  rw [write16InMap, locateInMap_below h0, locateInMap_below h1]
  rfl

end

section
variable {s u : State}

/-- A command's write of a byte: `u` is the state in which it writes. -/
theorem hostWrite8_spec (hu : SameMemory s u) (a : Word) (v : Byte) :
    Stored s (write8 u a v) a v ∧ StoresOnly s (write8 u a v) [a] ∧
      OnlyStores { u with bdm := (write8 u a v).bdm } (write8 u a v) := by
  have hstores := onlyStores_write8 u a v
  have hbdm : (write8 u a v).bdm = u.bdm := by rw [hstores]
  refine ⟨(stored_write8 u a v).of_sameMemory hu (.refl _), (storesOnly_write8 u a v).of_sameMemory hu (.refl _), ?_⟩
  rw [hbdm]
  exact hstores

/-- A command's write of a word. -/
theorem hostWrite16_spec (hu : SameMemory s u) (a v : Word) :
    StoredWord s (write16 u a v) a v ∧ StoresOnly s (write16 u a v) [a, a + 1] ∧
      OnlyStores { u with bdm := (write16 u a v).bdm } (write16 u a v) := by
  have hstores := onlyStores_write16 u a v
  have hbdm : (write16 u a v).bdm = u.bdm := by rw [hstores]
  refine ⟨(storedWord_write16 u a v).of_sameMemory hu (.refl _), (storesOnly_write16 u a v).of_sameMemory hu (.refl _),
    ?_⟩
  rw [hbdm]
  exact hstores

/-- READ_NEXT below the BDM resources. -/
theorem readNext_spec (hrun : s.run = .bdmActive) (hx : (s.x + 2).toNat < 0xFEFF) (addr data : Word) :
    ∃ t, bdmCommand s 0x62 addr data = .ok t ∧ t = { s with x := s.x + 2, bdm := t.bdm } ∧
      t.bdm.shift = read16 s .host (s.x + 2) := by
  let u := (firmwareStart s 0x62).setX (s.x + 2)
  have hread : read16InMap u .host (s.x + 2) = read16 s .host (s.x + 2) :=
    (read16InMap_below hx u .host).trans
      (read16_congr (s := s) (t := u) rfl rfl rfl rfl rfl rfl rfl rfl .host (s.x + 2))
  have hcommand : bdmCommand s 0x62 addr data = .ok (setShift u (read16InMap u .host (s.x + 2))) :=
    bdmCommand_firmware hrun rfl addr data
  rw [hread] at hcommand
  exact ⟨_, hcommand, rfl, rfl⟩

/-- WRITE_NEXT below the BDM resources. -/
theorem writeNext_spec (hrun : s.run = .bdmActive) (hx : (s.x + 2).toNat < 0xFEFF) (addr data : Word) :
    ∃ t, bdmCommand s 0x42 addr data = .ok t ∧ OnlyStores { s with x := s.x + 2, bdm := t.bdm } t ∧
      StoredWord s t (s.x + 2) data ∧ StoresOnly s t [s.x + 2, s.x + 3] := by
  let u := (setShift (firmwareStart s 0x42) data).setX (s.x + 2)
  have hwrite : bdmCommand s 0x42 addr data = .ok (write16 u (s.x + 2) data) := by
    rw [bdmCommand_firmware hrun rfl, ← write16InMap_below hx]
    rfl
  have hnext : s.x + 2 + 1 = s.x + 3 := by bv_omega
  obtain ⟨hword, honly, hstores⟩ := hostWrite16_spec (s := s) (u := u) ⟨rfl, rfl, rfl, rfl, rfl, rfl⟩ (s.x + 2) data
  exact ⟨_, hwrite, hstores, hword, hnext ▸ honly⟩

end

/-- Active BDM: the first clause of O57. -/
theorem firmwareCommands_spec {s : State} (hrun : s.run = .bdmActive) (addr data : Word) :
    (∃ t, bdmCommand s 0x43 addr data = .ok t ∧ t = { s with tmp2 := data, bdm := t.bdm }) ∧
    (∃ t, bdmCommand s 0x44 addr data = .ok t ∧ t.d = data ∧ t = { s with a := t.a, b := t.b, bdm := t.bdm }) ∧
    (∃ t, bdmCommand s 0x45 addr data = .ok t ∧ t = { s with x := data, bdm := t.bdm }) ∧
    (∃ t, bdmCommand s 0x46 addr data = .ok t ∧ t = { s with y := data, bdm := t.bdm }) ∧
    (∃ t, bdmCommand s 0x47 addr data = .ok t ∧ t = { s with sp := data, bdm := t.bdm }) ∧
    (∀ op v, (op, v) ∈ [((0x63 : Byte), s.tmp2), (0x64, s.d), (0x65, s.x), (0x66, s.y), (0x67, s.sp)] →
      ∃ t, bdmCommand s op addr data = .ok t ∧
        t = { s with bdm := { s.bdm with instr := op, shift := v, status := t.bdm.status } } ∧
        ∀ k, t.bdm.status.getLsbD k = (s.bdm.status.getLsbD k || decide (k = 4))) := by
  refine ⟨⟨_, bdmCommand_firmware hrun rfl addr data, rfl⟩,
    ⟨_, bdmCommand_firmware hrun rfl addr data, joinBytes_hiByte_loByte data, rfl⟩,
    ⟨_, bdmCommand_firmware hrun rfl addr data, rfl⟩, ⟨_, bdmCommand_firmware hrun rfl addr data, rfl⟩,
    ⟨_, bdmCommand_firmware hrun rfl addr data, rfl⟩, fun op v hmem => ?_⟩
  simp only [List.mem_cons, Prod.mk.injEq, List.not_mem_nil, or_false] at hmem
  rcases hmem with ⟨rfl, rfl⟩ | ⟨rfl, rfl⟩ | ⟨rfl, rfl⟩ | ⟨rfl, rfl⟩ | ⟨rfl, rfl⟩ <;>
    exact readCommand_spec hrun rfl rfl addr

end Sys2Proof.Machine
end

section
/-! PROOF. O57, the hardware commands: memory and the BDM registers as the host reads and writes them (60_exceptions.md
R701 to R705). -/

namespace Sys2Proof.Machine

/-! ## Hardware commands (R705) -/

/-- The state in which a memory command works: no valid data yet, opcode and address latched. -/
def hostStart (s : State) (op : Byte) (addr : Word) : State := bdmLatch (beginCommand s) op addr

/-- What a state of BDM holds besides its registers is as it was. -/
theorem sameMemory_bdm (s : State) (b : Bdm) : SameMemory s { s with bdm := b } := ⟨rfl, rfl, rfl, rfl, rfl, rfl⟩

theorem getLsbD_zero_eq (a : Word) : a.getLsbD 0 = decide (a.toNat % 2 = 1) := by
  rw [getLsbD_eq_decide, pow_zero, Nat.div_one]

section
variable {s : State} {op : Byte} {addr : Word}

theorem read8_hostStart (s : State) (op : Byte) (addr a : Word) :
    read8 (hostStart s op addr) .host a = read8 s .host a :=
  read8_congr (s := s) (t := hostStart s op addr) rfl rfl rfl rfl rfl rfl rfl rfl .host a

theorem read16_hostStart (s : State) (op : Byte) (addr a : Word) :
    read16 (hostStart s op addr) .host a = read16 s .host a :=
  read16_congr (s := s) (t := hostStart s op addr) rfl rfl rfl rfl rfl rfl rfl rfl .host a

/-- The byte that a read sends stands on the half that the parity of the address says. -/
theorem byteOut_shift (s : State) (addr : Word) (v : Byte) :
    (addr.toNat % 2 = 0 → (byteOut s addr v).bdm.shift.toNat / 256 = v.toNat) ∧
    (addr.toNat % 2 = 1 → (byteOut s addr v).bdm.shift.toNat % 256 = v.toNat) := by
  have hv := v.isLt
  have ho := (Config.freeByte s.free .hostOther addr).isLt
  simp only [byteOut, setShift_bdm, getLsbD_zero_eq]
  constructor <;> intro h <;> simp only [h, decide_true, decide_false, zero_ne_one, if_true, Bool.false_eq_true, if_false,
    toNat_joinBytes] <;> omega

/-- A read changes the BDM registers alone. -/
theorem byteOut_hostStart (s : State) (op : Byte) (addr : Word) (v : Byte) :
    byteOut (hostStart s op addr) addr v = { s with bdm := (byteOut (hostStart s op addr) addr v).bdm } := rfl

/-- A memory read of a byte. -/
theorem readByte_spec (hrun : s.run ≠ .stopped) (data : Word) (hop : op = 0xE0 ∨ op = 0xE4 ∧ addr.toNat < 0xFF00) :
    ∃ t, bdmCommand s op addr data = .ok t ∧ t = { s with bdm := t.bdm } ∧
      (addr.toNat % 2 = 0 → t.bdm.shift.toNat / 256 = (read8 s .host addr).toNat) ∧
      (addr.toNat % 2 = 1 → t.bdm.shift.toNat % 256 = (read8 s .host addr).toNat) := by
  have hcommand : bdmCommand s op addr data = .ok (byteOut (hostStart s op addr) addr (read8 s .host addr)) := by
    rw [bdmCommand, if_neg hrun, ← read8_hostStart s op addr addr]
    rcases hop with rfl | ⟨rfl, hbelow⟩
    · rfl
    · rw [← read8InMap_below (a := addr) hbelow]
      rfl
  exact ⟨_, hcommand, byteOut_hostStart s op addr _, byteOut_shift _ addr _⟩

/-- A memory read of an aligned word. -/
theorem readWord_spec (hrun : s.run ≠ .stopped) (data : Word) (heven : addr.toNat % 2 = 0)
    (hop : op = 0xE8 ∨ op = 0xEC ∧ addr.toNat < 0xFF00) :
    ∃ t, bdmCommand s op addr data = .ok t ∧ t = { s with bdm := t.bdm } ∧ t.bdm.shift = read16 s .host addr := by
  have haligned : ¬ addr.getLsbD 0 = true := by
    rw [getLsbD_zero_eq, decide_eq_true_eq]
    omega
  have hcommand : bdmCommand s op addr data = .ok (setShift (hostStart s op addr) (read16 s .host addr)) := by
    rw [bdmCommand, if_neg hrun, ← read16_hostStart s op addr addr]
    rcases hop with rfl | ⟨rfl, hbelow⟩
    · exact if_neg haligned
    · rw [← read16InMap_below (a := addr) (by omega)]
      exact if_neg haligned
  exact ⟨_, hcommand, rfl, rfl⟩

/-- The data byte of a write is the half of the word that the parity of the address says. -/
theorem byteIn_eq (addr data : Word) :
    byteIn addr data = BitVec.ofNat 8 (if addr.toNat % 2 = 0 then data.toNat / 256 else data.toNat) := by
  rw [byteIn, getLsbD_zero_eq]
  by_cases h : addr.toNat % 2 = 0
  · rw [if_neg (by simp [h]), if_pos h, hiByte_eq]
  · rw [if_pos (by simpa using h), if_neg h, loByte_eq]

/-- A memory write of a byte. -/
theorem writeByte_spec (hrun : s.run ≠ .stopped) (data : Word) (hop : op = 0xC0 ∨ op = 0xC4 ∧ addr.toNat < 0xFF00) :
    ∃ t, bdmCommand s op addr data = .ok t ∧
      Stored s t addr (BitVec.ofNat 8 (if addr.toNat % 2 = 0 then data.toNat / 256 else data.toNat)) ∧
      StoresOnly s t [addr] ∧ OnlyStores { s with bdm := t.bdm } t := by
  have hcommand : bdmCommand s op addr data =
      .ok (write8 (setShift (hostStart s op addr) data) addr (byteIn addr data)) := by
    rw [bdmCommand, if_neg hrun]
    rcases hop with rfl | ⟨rfl, hbelow⟩
    · rfl
    · rw [← write8InMap_below (a := addr) hbelow]
      rfl
  rw [← byteIn_eq]
  exact ⟨_, hcommand, hostWrite8_spec (sameMemory_bdm s _) addr _⟩

/-- A memory write of an aligned word. -/
theorem writeWord_spec (hrun : s.run ≠ .stopped) (data : Word) (heven : addr.toNat % 2 = 0)
    (hop : op = 0xC8 ∨ op = 0xCC ∧ addr.toNat < 0xFF00) :
    ∃ t, bdmCommand s op addr data = .ok t ∧ StoredWord s t addr data ∧ StoresOnly s t [addr, addr + 1] ∧
      OnlyStores { s with bdm := t.bdm } t := by
  have haligned : ¬ addr.getLsbD 0 = true := by
    rw [getLsbD_zero_eq, decide_eq_true_eq]
    omega
  have hcommand : bdmCommand s op addr data = .ok (write16 (setShift (hostStart s op addr) data) addr data) := by
    rw [bdmCommand, if_neg hrun]
    rcases hop with rfl | ⟨rfl, hbelow⟩
    · exact if_neg haligned
    · rw [← write16InMap_below (a := addr) (by omega)]
      exact if_neg haligned
  exact ⟨_, hcommand, hostWrite16_spec (sameMemory_bdm s _) addr data⟩

/-- A word command at an odd address is refused (U27). -/
theorem wordCommand_misaligned (hrun : s.run ≠ .stopped) (data : Word) (hodd : addr.toNat % 2 = 1)
    (hop : op ∈ [(0xE8 : Byte), 0xEC, 0xC8, 0xCC]) : bdmCommand s op addr data = .error .misalignedBdmWord := by
  have h : addr.getLsbD 0 = true := by rw [getLsbD_zero_eq, decide_eq_true_eq, hodd]
  simp only [List.mem_cons, List.not_mem_nil, or_false] at hop
  rw [bdmCommand, if_neg hrun]
  rcases hop with rfl | rfl | rfl | rfl <;> exact if_pos h

/-! ### The BDM registers through the map (R701, R702, R705) -/

theorem readStatus_spec (hrun : s.run ≠ .stopped) (data : Word) :
    ∃ t, bdmCommand s 0xE4 0xFF01 data = .ok t ∧ t = { s with bdm := t.bdm } ∧
      ∀ k < 8, t.bdm.shift.getLsbD k = (s.bdm.status.getLsbD k && decide (k ≠ 4)) := by
  have hcommand : bdmCommand s 0xE4 0xFF01 data =
      .ok (byteOut (hostStart s 0xE4 0xFF01) 0xFF01 (putBit s.bdm.status 4 false)) := by
    rw [bdmCommand, if_neg hrun]
    rfl
  refine ⟨_, hcommand, byteOut_hostStart s _ _ _, fun k hk => ?_⟩
  have hlow (h l : Byte) : (joinBytes h l).getLsbD k = l.getLsbD k := by
    rw [joinBytes, BitVec.getLsbD_append, if_pos hk]
  rw [byteOut, setShift_bdm]
  refine (hlow _ _).trans ?_
  rw [putBit_getLsbD _ _ _ (by decide)]
  by_cases h : k = 4 <;> simp [h]

theorem readHeldCcr_spec (hrun : s.run ≠ .stopped) (data : Word) :
    ∃ t, bdmCommand s 0xE4 0xFF06 data = .ok t ∧ t = { s with bdm := t.bdm } ∧
      t.bdm.shift.toNat / 256 = s.bdm.ccr.toNat := by
  have hcommand : bdmCommand s 0xE4 0xFF06 data = .ok (byteOut (hostStart s 0xE4 0xFF06) 0xFF06 s.bdm.ccr) := by
    rw [bdmCommand, if_neg hrun]
    rfl
  exact ⟨_, hcommand, byteOut_hostStart s _ _ _, (byteOut_shift _ 0xFF06 _).1 (by decide)⟩

theorem bdmCommand_writeInMap (hrun : s.run ≠ .stopped) (addr data : Word) : bdmCommand s 0xC4 addr data =
    .ok (write8InMap (setShift (hostStart s 0xC4 addr) data) addr (byteIn addr data)) := by
  rw [bdmCommand, if_neg hrun]
  rfl

/-- Before a write the command has changed the BDM registers alone. -/
theorem setShift_hostStart (s : State) (op : Byte) (addr data : Word) (b : Bdm) :
    { setShift (hostStart s op addr) data with bdm := b } = { s with bdm := b } := by
  simp only [setShift, hostStart, bdmLatch, beginCommand]

/-- The BDM registers stand in the map at $FF00 to $FF06. -/
theorem write8InMap_register {a : Word} (hfrom : 0xFF00 ≤ a) (hto : a ≤ 0xFF06) (s : State) (v : Byte) :
    write8InMap s a v = writeBdmResource s a v := by
  rw [write8InMap, locateInMap, if_neg (by bv_omega), if_pos hto, writeMapTarget]

/-- Of STATUS the host writes ENBDM alone. -/
theorem write8InMap_status (s : State) (v : Byte) :
    write8InMap s 0xFF01 v = { s with bdm := { s.bdm with status := putBit s.bdm.status 7 (v.getLsbD 7) } } := by
  rw [write8InMap_register (by decide) (by decide), writeBdmResource, if_neg (by decide), if_pos rfl]

theorem write8InMap_heldCcr (s : State) (v : Byte) :
    write8InMap s 0xFF06 v = { s with bdm := { s.bdm with ccr := v } } := by
  rw [write8InMap_register (by decide) (by decide), writeBdmResource, if_neg (by decide), if_neg (by decide),
    if_neg (by decide), if_neg (by decide), if_neg (by decide), if_neg (by decide), if_pos rfl]

theorem writeStatus_spec (hrun : s.run ≠ .stopped) (data : Word) :
    ∃ t, bdmCommand s 0xC4 0xFF01 data = .ok t ∧ t = { s with bdm := t.bdm } ∧
      t.bdm.status.getLsbD 7 = data.getLsbD 7 ∧
      ∀ k, k ≠ 7 → k ≠ 4 → t.bdm.status.getLsbD k = s.bdm.status.getLsbD k := by
  have hcommand := bdmCommand_writeInMap hrun 0xFF01 data
  rw [write8InMap_status, setShift_hostStart] at hcommand
  refine ⟨_, hcommand, ?_, ?_, fun k h7 h4 => ?_⟩
  · rfl
  · simp [byteIn, loByte]
  · simp [hostStart, bdmLatch, putBit_getLsbD, h7, h4]

theorem writeHeldCcr_spec (hrun : s.run ≠ .stopped) (data : Word) :
    ∃ t, bdmCommand s 0xC4 0xFF06 data = .ok t ∧ t = { s with bdm := t.bdm } ∧ t.bdm.ccr.toNat = data.toNat / 256 := by
  have hcommand := bdmCommand_writeInMap hrun 0xFF06 data
  have hin : byteIn 0xFF06 data = hiByte data := if_neg (by decide)
  rw [write8InMap_heldCcr, setShift_hostStart, hin] at hcommand
  refine ⟨_, hcommand, ?_, ?_⟩
  · rfl
  · exact toNat_hiByte data

/-- BACKGROUND asks for BDM where it is not active. -/
theorem background_spec (hrun : s.run ≠ .stopped) (addr data : Word) :
    ∃ t, bdmCommand s 0x90 addr data = .ok t ∧ t = { s with bdm := t.bdm } ∧
      (s.run ≠ .bdmActive → t.bdm.request = true) ∧ (s.run = .bdmActive → t.bdm.request = s.bdm.request) := by
  let u := firmwareStart s 0x90
  have hcommand : bdmCommand s 0x90 addr data = .ok (requestBdm u) := by
    rw [bdmCommand, if_neg hrun]
    rfl
  refine ⟨_, hcommand, ?_⟩
  by_cases h : s.run = .bdmActive
  · rw [requestBdm, if_pos (by exact h)]
    exact ⟨rfl, fun hne => absurd h hne, fun _ => rfl⟩
  · rw [requestBdm, if_neg (by exact h)]
    exact ⟨rfl, fun _ => rfl, fun he => absurd he h⟩

end

end Sys2Proof.Machine
end

section
/-! PROOF. O57, the boundary: the ways into BDM, tags, and the end of a TRACE1 (60_exceptions.md R700, R706, R716 to
R719); and the obligation from its parts. -/

namespace Sys2Proof.Machine

/-! ## The action at the boundary -/

section
variable {s : State} {tags : List TagKind}

/-- A request for BDM goes before everything else. -/
theorem boundaryAction_request (hrun : s.run = .running) (hprog : s.progress = .none) (hreq : s.bdm.request = true) :
    boundaryAction s tags = .ok .enterBdm := by
  simp [boundaryAction, hrun, runningAction, ruleListOverlap_of_none hprog, hreq, hprog]

/-- A tag that counts goes after an interrupt. -/
theorem boundaryAction_tag {k : TagKind} (hrun : s.run = .running) (hprog : s.progress = .none)
    (hreq : s.bdm.request = false) (hint : interruptHere s = none) (htag : effectiveTag s tags = some k) :
    boundaryAction s tags = .ok (.tagged k) := by
  simp [boundaryAction, hrun, runningAction, ruleListOverlap_of_none hprog, hreq, hint, continueAction, hprog, htag]

theorem interruptHere_of_not_tracing (h : s.bdm.tracing = false) : interruptHere s = recognised s := by
  rw [interruptHere, if_neg (by rw [h]; decide)]

/-- A pin tag with ENTAG = 0 does nothing. -/
theorem boundary_disabled_pin (h : tagEnableBit s = false) : boundary s [.pin] = boundary s [] := by
  have htag : effectiveTag s [.pin] = effectiveTag s [] := by
    have hbit : s.bdm.status.getLsbD 5 = false := h
    simp only [effectiveTag, List.find?, hbit, bne_self_eq_false, Bool.or_false]
  have haction : boundaryAction s [.pin] = boundaryAction s [] := by
    simp only [boundaryAction, runningAction, continueAction, htag]
  rw [boundary, boundary, haction]

end

/-! ## The step with one event -/

section
variable {s : State} {later : List (List Event)}

theorem step_tag {k : TagKind} (hs : s.schedule = [.tag k] :: later) :
    step s = mapNext closeStep (boundary { s with schedule := later } [k]) := by
  simp [step, oneStep, arrivals, hs, arriveEvents, arriveEvent, stepAt]

theorem step_forceBdm (hs : s.schedule = [.forceBdm] :: later) (hrun : s.run = .running) :
    step s = mapNext closeStep
      (boundary { s with schedule := later, bdm := { s.bdm with request := true } } []) := by
  simp [step, oneStep, arrivals, hs, arriveEvents, arriveEvent, stepAt, requestBdm, hrun]

theorem step_nothing (hs : s.schedule = [] :: later) :
    step s = mapNext closeStep (boundary { s with schedule := later } []) := by
  have h := step_of_no_event (s := s) (by rw [hs]; rfl)
  rw [hs] at h
  exact h

/-! ## Entering BDM -/

/-- What an activation of BDM at a boundary leaves, as the end of the step has it. -/
def EntersBdm (s t : State) (later : List (List Event)) : Prop :=
  t.tmp2 = (if read8 s .bgnd s.pc = 0 then s.pc + 1 else s.pc) ∧
  t.bdm = { s.bdm with ccr := s.ccr, request := false, status := t.bdm.status } ∧
  (s.bdm.status.getLsbD 7 = true → t.run = .bdmActive ∧ bdmActiveBit t = true ∧ tagEnableBit t = false) ∧
  (s.bdm.status.getLsbD 7 = false → t.run = .running ∧ t.pc = t.tmp2 ∧ t.bdm.status = s.bdm.status) ∧
  t = { s with schedule := later, tmp2 := t.tmp2, pc := t.pc, run := t.run, bdm := t.bdm, stale := [],
               budget := none, stores := [], earlier := none, free := s.free + 1 }

/-- The activation, whether it was asked for before or in this step. -/
theorem entersBdm_enterBdmHere (hrun : s.run = .running) (htr : s.bdm.tracing = false) (asked : Bool) :
    EntersBdm s (closeStep (endTrace (enterBdmHere
      { s with schedule := later, bdm := { s.bdm with request := asked } }))) later := by
  set u : State := { s with schedule := later, bdm := { s.bdm with request := asked } } with hu
  have hread : read8 u .bgnd u.pc = read8 s .bgnd s.pc :=
    read8_congr (s := s) (t := u) rfl rfl rfl rfl rfl rfl rfl rfl .bgnd s.pc
  have hresume : bdmResume u u.pc = if read8 s .bgnd s.pc = 0 then s.pc + 1 else s.pc := by rw [bdmResume, hread]
  obtain ⟨heq, hbdm, hoff, hon⟩ := enterBdm_spec u (bdmResume u u.pc)
  rw [hresume] at heq hbdm hoff hon
  rw [enterBdmHere, hresume]
  generalize enterBdm u _ = t at *
  have htmp2 : t.tmp2 = if read8 s .bgnd s.pc = 0 then s.pc + 1 else s.pc := by rw [heq]
  have htracing : t.bdm.tracing = false := by
    rw [hbdm]
    exact htr
  rw [endTrace_of_not_tracing htracing]
  refine ⟨htmp2, hbdm, fun h => ?_, fun h => ?_, ?_⟩
  · obtain ⟨-, hr, h6, h5, -⟩ := hon h
    exact ⟨hr, h6, h5⟩
  · obtain ⟨hp, hr, hst⟩ := hoff h
    exact ⟨hr.trans hrun, hp.trans htmp2.symm, hst⟩
  · rw [closeStep, heq]

/-- Every way into BDM at a boundary of the running state (R716 to R719, logs 28, 39). -/
theorem step_entersBdm {now : List Event} (hs : s.schedule = now :: later) (hrun : s.run = .running)
    (hprog : s.progress = .none) (htr : s.bdm.tracing = false)
    (hway : now = [] ∧ s.bdm.request = true ∨ now = [.forceBdm] ∨
      s.bdm.request = false ∧ recognised s = none ∧ (now = [.tag .bdm] ∨ now = [.tag .pin] ∧ tagEnableBit s = true)) :
    Completes (step s) fun t => EntersBdm s t later := by
  have hasked := entersBdm_enterBdmHere (later := later) hrun htr
  rcases hway with ⟨rfl, hreq⟩ | rfl | ⟨hreq, hrec, htag⟩
  · have h := hasked s.bdm.request
    rw [step_nothing hs, boundary_ok (boundaryAction_request (s := { s with schedule := later }) hrun hprog hreq)]
    exact ⟨_, rfl, h⟩
  · have h := hasked true
    rw [step_forceBdm hs hrun, boundary_ok (boundaryAction_request
      (s := { s with schedule := later, bdm := { s.bdm with request := true } }) hrun hprog rfl)]
    exact ⟨_, rfl, h⟩
  · have h := hasked s.bdm.request
    have hint : interruptHere { s with schedule := later } = none :=
      (interruptHere_of_not_tracing (s := { s with schedule := later }) htr).trans hrec
    rcases htag with rfl | ⟨rfl, hen⟩
    · rw [step_tag hs, boundary_ok (boundaryAction_tag (s := { s with schedule := later }) hrun hprog hreq hint rfl)]
      exact ⟨_, rfl, h⟩
    · have htag : effectiveTag { s with schedule := later } [.pin] = some .pin := by
        have hbit : s.bdm.status.getLsbD 5 = true := hen
        simp only [effectiveTag, List.find?, hbit, Bool.or_true]
      rw [step_tag hs, boundary_ok (boundaryAction_tag (s := { s with schedule := later }) hrun hprog hreq hint htag)]
      exact ⟨_, rfl, h⟩

/-- An SWI tag takes the SWI exception, of which the I-clear delay is over. -/
theorem step_swiTag (hs : s.schedule = [.tag .swi] :: later) (hrun : s.run = .running)
    (hprog : s.progress = .none) (htr : s.bdm.tracing = false) (hreq : s.bdm.request = false)
    (hrec : recognised s = none) :
    ∃ t, step s = .next { t with iDelay := false, budget := none, stores := [], earlier := none, free := t.free + 1 } ∧
      Entered { s with schedule := later } t 0xFFF6 (s.pc + 1) false := by
  have hint : interruptHere { s with schedule := later } = none :=
    (interruptHere_of_not_tracing (s := { s with schedule := later }) htr).trans hrec
  have hentered := entered_takeException { s with schedule := later } 0xFFF6 (s.pc + 1) false
  have hstep : step s = .next (closeStep (endTrace (noteIDelay s.flagI false
      (takeException { s with schedule := later } 0xFFF6 (s.pc + 1) false)))) := by
    rw [step_tag hs, boundary_ok (boundaryAction_tag (s := { s with schedule := later }) hrun hprog hreq hint rfl)]
    rfl
  generalize takeException { s with schedule := later } 0xFFF6 (s.pc + 1) false = t at hentered hstep
  obtain ⟨-, -, ⟨-, -, -, hI, -⟩, heq⟩ := id hentered
  have htracing : t.bdm.tracing = false := by
    rw [heq]
    exact htr
  have hnone : t.progress = .none := by
    rw [heq]
    exact hprog
  refine ⟨t, ?_, hentered⟩
  rw [hstep, retire_of_not_tracing htracing, if_pos hnone, hI, Bool.not_true, Bool.and_false, Bool.false_and]
  rfl

end

/-! ## The end of a TRACE1 -/

theorem endTrace_of_unfinished {t : State}
    (h : t.bdm.tracing = false ∨ t.progress ≠ .none ∨ t.run = .waiting ∨ t.run = .stopped) : endTrace t = t := by
  rw [endTrace, if_neg]
  rcases h with h | h | h | h <;> simp [h]

/-- TRACE is cleared and BDM entered before the next instruction. -/
theorem endTrace_of_running {t : State} (htr : t.bdm.tracing = true) (hprog : t.progress = .none)
    (hrun : t.run = .running) : endTrace t = enterBdm
      { t with bdm := { t.bdm with tracing := false, status := putBit t.bdm.status 3 false } } (bdmResume t t.pc) := by
  set u : State := { t with bdm := { t.bdm with tracing := false, status := putBit t.bdm.status 3 false } }
  have hread : read8 u .bgnd t.pc = read8 t .bgnd t.pc :=
    read8_congr (s := t) (t := u) rfl rfl rfl rfl rfl rfl rfl rfl .bgnd t.pc
  have hresume : bdmResume u u.pc = bdmResume t t.pc := by
    rw [bdmResume, bdmResume]
    exact congrArg (fun v : Byte => if v = 0 then t.pc + 1 else t.pc) hread
  rw [endTrace, if_pos (by simp [htr, hprog, hrun])]
  refine (if_pos hrun).trans ?_
  rw [hresume]

theorem endTrace_spec {t : State} (htr : t.bdm.tracing = true) (hprog : t.progress = .none) (hrun : t.run = .running)
    (hen : t.bdm.status.getLsbD 7 = true) :
    let u := endTrace t
    u.run = .bdmActive ∧ bdmActiveBit u = true ∧ u.bdm.tracing = false ∧ u.bdm.status.getLsbD 3 = false ∧
    u.bdm.ccr = t.ccr ∧ u.tmp2 = (if read8 t .bgnd t.pc = 0 then t.pc + 1 else t.pc) ∧
    u = { t with tmp2 := u.tmp2, pc := u.pc, run := u.run, bdm := u.bdm, stale := [] } := by
  have hstatus (k : Nat) : (putBit t.bdm.status 3 false).getLsbD k = if k = 3 then false else t.bdm.status.getLsbD k :=
    putBit_getLsbD _ _ _ (by decide)
  rw [endTrace_of_running htr hprog hrun]
  obtain ⟨heq, hbdm, -, hon⟩ := enterBdm_spec
    { t with bdm := { t.bdm with tracing := false, status := putBit t.bdm.status 3 false } } (bdmResume t t.pc)
  obtain ⟨-, hactive, hbit, -, hkeep⟩ := hon ((hstatus 7).trans hen)
  have h3 := (hkeep 3 (by decide) (by decide)).trans (hstatus 3)
  generalize enterBdm _ (bdmResume t t.pc) = u at *
  have htmp2 : u.tmp2 = bdmResume t t.pc := by rw [heq]
  refine ⟨hactive, hbit, by rw [hbdm], h3, by rw [hbdm], htmp2, ?_⟩
  rw [htmp2]
  exact heq

/-- Settles O57, clause by clause. -/
theorem bdmCommands : Obligations.BdmCommands := by
  unfold Obligations.BdmCommands
  refine ⟨⟨fun s addr data hrun => ?_, fun s op addr data hrun hop => bdmCommand_not_active hrun hop addr data⟩,
    fun s addr data hrun => ?_, fun s now later hs hrun hprog htr => ⟨step_entersBdm hs hrun hprog htr, ?_⟩,
    fun s later hs htag => ?_, fun t => ⟨endTrace_of_unfinished, endTrace_spec⟩⟩
  · obtain ⟨htmp2, hd, hx, hy, hsp, hreads⟩ := firmwareCommands_spec hrun addr data
    exact ⟨fun op hop => leavesActiveBdm_of_command hrun addr data hop, htmp2, hd, hx, hy, hsp, hreads,
      fun hbelow => ⟨readNext_spec hrun hbelow addr data, writeNext_spec hrun hbelow addr data⟩⟩
  · exact ⟨fun op hop => readByte_spec hrun data hop, fun op hop => writeByte_spec hrun data hop,
      fun heven => ⟨fun op hop => readWord_spec hrun data heven hop, fun op hop => writeWord_spec hrun data heven hop⟩,
      fun hodd op hop => wordCommand_misaligned hrun data hodd hop, readStatus_spec hrun data,
      readHeldCcr_spec hrun data, writeStatus_spec hrun data, writeHeldCcr_spec hrun data,
      background_spec hrun addr data, fun q op hq => if_pos hq⟩
  · rintro rfl hreq hrec
    exact step_swiTag hs hrun hprog htr hreq hrec
  · rw [step_tag hs, step_nothing (s := { s with schedule := [] :: later }) rfl]
    exact congrArg (mapNext closeStep) (boundary_disabled_pin (s := { s with schedule := later }) htag)

end Sys2Proof.Machine
end

section
/-! PROOF. O58: a BDM access or a reset between the two accesses of INC on a byte of storage (60_exceptions.md R690, R705,
20_memory.md R68, R70, R81, D18). -/

namespace Sys2Proof.Machine

/-! ## One byte of storage, and the map that reaches it -/

/-- `t` has the map and the page registers of `s`, and its storage cell `k` holds `v`. -/
structure Holds (s : State) (k : Nat) (t : State) (v : Byte) : Prop where
  cfg : t.cfg = s.cfg
  windows : t.windows = s.windows
  ppage : t.ppage = s.ppage
  dpage : t.dpage = s.dpage
  epage : t.epage = s.epage
  cell : memGet t.mem k = v

section
variable {s t u : State} {k : Nat} {a : Word} {v w : Byte}

theorem Holds.locate (h : Holds s k t v) (x : Word) : locate t x = locate s x :=
  locate_congr h.cfg h.windows h.ppage h.dpage h.epage x

theorem Holds.of_sameMemory (h : Holds s k t v) (hu : SameMemory t u) : Holds s k u v := by
  obtain ⟨hm, hc, hw, hp, hd, he⟩ := hu
  exact ⟨hc.trans h.cfg, hw.trans h.windows, hp.trans h.ppage, hd.trans h.dpage, he.trans h.epage, by rw [hm, h.cell]⟩

/-- A write to the address of the cell. -/
theorem Holds.write8 (h : Holds s k t v) (ha : Machine.locate s a = .cell k true) (w : Byte) :
    Holds s k (Machine.write8 t a w) w := by
  obtain ⟨st, e⟩ := writeTarget_eq t (.cell k true) w
  rw [Machine.write8, h.locate, ha, e]
  exact ⟨h.cfg, h.windows, h.ppage, h.dpage, h.epage, memGet_memSet_same t.mem k w⟩

theorem Holds.byteAt (h : Holds s k t v) (ha : Machine.locate s a = .cell k true) : byteAt t a = some v := by
  rw [Machine.byteAt, h.locate, ha, targetByte, h.cell]

theorem Holds.read8 (h : Holds s k t v) (ha : Machine.locate s a = .cell k true) {d : Draw} (hseen : seenBy t d = t) :
    read8 t d a = v := by
  rw [Machine.read8, hseen, h.byteAt ha, Option.getD_some]

end

/-! ## INC of the byte -/

section
variable {s p : State} {k : Nat} {a : Word}

/-- INC in the extended form reads the byte and stores it incremented; what matters of it here. -/
theorem exec_inc_ext {x : State} {v : Byte} (h : Holds s k x v) (ha : locate s a = .cell k true) :
    ∃ t, exec (.inc (.ext a)) x = .next t ∧ Holds s k t (read8 x .operand a + 1) ∧
      t.stores = .byte a (read8 x .operand a + 1) :: x.stores ∧ t.pc = x.pc ∧ t.bdm = x.bdm := by
  have hstores := onlyStores_write8 x a (read8 x .operand a + 1)
  have hpc : (write8 x a (read8 x .operand a + 1)).pc = x.pc := by rw [hstores]
  have hbdm : (write8 x a (read8 x .operand a + 1)).bdm = x.bdm := by rw [hstores]
  have hwrite := h.write8 ha (read8 x .operand a + 1)
  refine ⟨_, rfl, hwrite.of_sameMemory ⟨rfl, rfl, rfl, rfl, rfl, rfl⟩, ?_, hpc, hbdm⟩
  exact congrArg (fun l => Store.byte a (read8 x .operand a + 1) :: l) (write8_stores x a _)

end

/-! ## A command between its two accesses -/

/-- What a command leaves that finds `v` in the cell and leaves `after v` there: `sends` relates the BDM registers to
what it finds. -/
structure Accessed (s : State) (k : Nat) (x q : State) (v : Byte) (after : Byte → Byte) (sends : Bdm → Byte → Prop) :
    Prop where
  holds : Holds s k q (after v)
  pc : q.pc = x.pc
  stores : q.stores = x.stores
  tracing : q.bdm.tracing = x.bdm.tracing
  sends : sends q.bdm v

/-- The command does so in every state of the map of `s` that runs. -/
def AccessesByte (s : State) (k : Nat) (c : Command) (after : Byte → Byte) (sends : Bdm → Byte → Prop) : Prop :=
  ∀ x v, Holds s k x v → x.run = .running → x.earlier = none →
    ∃ q, bdmCommand x c.op c.addr c.data = .ok q ∧ Accessed s k x q v after sends

/-- What INC leaves with a command inside it that has found `seen`. -/
def IncLeaves (s p : State) (k : Nat) (sends : Bdm → Byte → Prop) (r : Res) (v seen : Byte) : Prop :=
  ∃ t, r = .next t ∧ Holds s k t v ∧ t.pc = p.pc ∧ t.bdm.tracing = p.bdm.tracing ∧
    sends t.bdm seen

section
variable {s p : State} {k : Nat} {a : Word} {c : Command} {after : Byte → Byte} {sends : Bdm → Byte → Prop} {old : Byte}

/-- The command comes before the read, or after it and before the store. -/
theorem inc_commandBeforeStore (hc : AccessesByte s k c after sends) (hp : Holds s k p old)
    (ha : locate s a = .cell k true) (hrun : p.run = .running) (hearlier : p.earlier = none) {reads : Nat}
    (hreads : reads < allReads) (n : Nat) :
    IncLeaves s p k sends (commandWithin (exec (.inc (.ext a))) p c reads n)
      ((if accessRank .operand < reads then old else after old) + 1) old := by
  obtain ⟨q, hq, hacc⟩ := hc p old hp hrun hearlier
  set x : State := { q with earlier := some ⟨reads, p.mem, p.ppage, p.dpage, p.epage⟩ } with hx
  have hxholds : Holds s k x (after old) := hacc.holds.of_sameMemory ⟨rfl, rfl, rfl, rfl, rfl, rfl⟩
  have hread : read8 x .operand a = if accessRank .operand < reads then old else after old := by
    have hseen : seenBy x .operand = if accessRank .operand < reads then
        { x with mem := p.mem, ppage := p.ppage, dpage := p.dpage, epage := p.epage } else x := rfl
    split_ifs at hseen ⊢ with hr
    · have hpast : Holds s k (seenBy x .operand) old := by
        rw [hseen]
        exact ⟨hxholds.cfg, hxholds.windows, hp.ppage, hp.dpage, hp.epage, hp.cell⟩
      rw [read8, hpast.byteAt ha, Option.getD_some]
    · exact hxholds.read8 ha hseen
  obtain ⟨t, ht, htholds, -, htpc, htbdm⟩ := exec_inc_ext hxholds ha
  rw [hread] at htholds
  refine ⟨endEarly t, ?_, htholds.of_sameMemory ⟨rfl, rfl, rfl, rfl, rfl, rfl⟩, htpc.trans hacc.pc,
    (congrArg Bdm.tracing htbdm).trans hacc.tracing, htbdm.symm ▸ hacc.sends⟩
  simp only [commandWithin, hq, if_pos hreads]
  rw [← hx, ht, mapNext]

/-- The command falls before or after the store of one byte, of which it is a store of the cell. -/
theorem commandAmong_oneStore (hc : AccessesByte s k c after sends) (hp : Holds s k p old)
    (ha : locate s a = .cell k true) (hrun : p.run = .running) (hearlier : p.earlier = none) {t : State} {new : Byte}
    (ht : Holds s k t new) (hstores : t.stores = [.byte a new]) (b : Bool) (n : Nat) :
    ∃ u, commandAmong p t b c n = .ok u ∧ Holds s k u (if n = 0 then new else after new) ∧ u.pc = t.pc ∧
      u.bdm.tracing = p.bdm.tracing ∧ sends u.bdm (if n = 0 then old else new) := by
  have hes : t.stores.reverse = [.byte a new] := by rw [hstores, List.reverse_singleton]
  obtain ⟨m, hm⟩ : ∃ m, m = if n = 0 then old else new := ⟨_, rfl⟩
  have hbefore : Holds s k (applyStores p ([.byte a new].take n)) m := by
    cases n with
    | zero => exact hm ▸ hp
    | succ n =>
      rw [hm, if_neg n.succ_ne_zero, List.take_of_length_le (by simp)]
      exact hp.write8 ha new
  have honly := onlyStores_applyStores p ([.byte a new].take n)
  set y : State := { applyStores p ([.byte a new].take n) with pc := t.pc, stale := [] } with hy
  have hyrun : y.run = .running := by
    rw [hy, honly]
    exact hrun
  have hyearlier : y.earlier = none := by
    rw [hy, honly]
    exact hearlier
  have hytracing : y.bdm.tracing = p.bdm.tracing := by rw [hy, honly]
  obtain ⟨r, hr, hacc⟩ := hc y m (hbefore.of_sameMemory ⟨rfl, rfl, rfl, rfl, rfl, rfl⟩) hyrun hyearlier
  set z : State := { r with pc := p.pc, stale := (applyStores p ([.byte a new].take n)).stale } with hz
  have hafter : Holds s k (applyStores z ([.byte a new].drop n)) (if n = 0 then new else after new) := by
    have hrest : Holds s k z (after m) := hacc.holds.of_sameMemory ⟨rfl, rfl, rfl, rfl, rfl, rfl⟩
    cases n with
    | zero => exact hrest.write8 ha new
    | succ n =>
      rw [if_neg n.succ_ne_zero] at hm ⊢
      rw [List.drop_eq_nil_of_le (by simp), ← hm]
      exact hrest
  set w : State := applyStores z ([.byte a new].drop n) with hw
  have hu : commandAmong p t b c n = .ok { t with
      mem := w.mem, ppage := w.ppage, dpage := w.dpage, epage := w.epage
      stale := if b then r.stale else r.stale ++ w.stale, bdm := r.bdm } := by
    rw [commandAmong, hes]
    simp only [← hy, hr, Except.map, ← hz, ← hw]
    rfl
  refine ⟨_, hu, ⟨ht.cfg, ht.windows, hafter.ppage, hafter.dpage, hafter.epage, hafter.cell⟩, ?_⟩
  exact ⟨rfl, hacc.tracing.trans hytracing, hm ▸ hacc.sends⟩

/-- The command comes where every read is made: before the store or after it. -/
theorem inc_commandAmongStores (hc : AccessesByte s k c after sends) (hp : Holds s k p old)
    (ha : locate s a = .cell k true) (hrun : p.run = .running) (hearlier : p.earlier = none) (hnone : p.stores = [])
    (n : Nat) :
    IncLeaves s p k sends (commandWithin (exec (.inc (.ext a))) p c allReads n)
      (if n = 0 then old + 1 else after (old + 1)) (if n = 0 then old else old + 1) := by
  obtain ⟨q, hq, hacc⟩ := hc p old hp hrun hearlier
  set x : State := { q with earlier := some ⟨allReads, p.mem, p.ppage, p.dpage, p.epage⟩, stale := flowMark } with hx
  have hxholds : Holds s k x (after old) := hacc.holds.of_sameMemory ⟨rfl, rfl, rfl, rfl, rfl, rfl⟩
  have hpast : Holds s k (seenBy x .operand) old :=
    ⟨hxholds.cfg, hxholds.windows, hp.ppage, hp.dpage, hp.epage, hp.cell⟩
  have hread : read8 x .operand a = old := by rw [read8, hpast.byteAt ha, Option.getD_some]
  obtain ⟨t, ht, htholds, htstores, htpc, -⟩ := exec_inc_ext hxholds ha
  rw [hread] at htholds htstores
  have hone : x.stores = [] := hacc.stores.trans hnone
  rw [hone] at htstores
  obtain ⟨u, hu, huholds, hupc, hutracing, husends⟩ := commandAmong_oneStore hc hp ha hrun hearlier
    (t := endEarly t) (htholds.of_sameMemory ⟨rfl, rfl, rfl, rfl, rfl, rfl⟩) htstores t.stale.isEmpty n
  refine ⟨u, ?_, huholds, hupc.trans (htpc.trans hacc.pc), hutracing, husends⟩
  simp only [commandWithin, hq, if_neg (Nat.lt_irrefl allReads)]
  rw [← hx, ht]
  simp only [hu]

end

/-! ## The two commands -/

section
variable {s : State} {k : Nat} {a : Word}

/-- A write of the host. -/
theorem accessesByte_write (ha : locate s a = .cell k true) (data : Word) :
    AccessesByte s k ⟨0xC0, a, data⟩ (fun _ => byteIn a data) fun _ _ => True := by
  intro x v hx hrun _
  have hne : x.run ≠ .stopped := by rw [hrun]; decide
  have hstores := onlyStores_write8 (setShift (hostStart x 0xC0 a) data) a (byteIn a data)
  have hcommand : bdmCommand x 0xC0 a data = .ok (write8 (setShift (hostStart x 0xC0 a) data) a (byteIn a data)) := by
    rw [bdmCommand, if_neg hne]
    rfl
  have hstart : Holds s k (setShift (hostStart x 0xC0 a) data) v := hx.of_sameMemory (sameMemory_bdm x _)
  exact ⟨_, hcommand, hstart.write8 ha _, by rw [hstores]; rfl, write8_stores _ _ _,
    by rw [hstores]; rfl, trivial⟩

/-- A read of the host sends the byte that it finds. -/
theorem accessesByte_read (ha : locate s a = .cell k true) (data : Word) :
    AccessesByte s k ⟨0xE0, a, data⟩ id fun b v =>
      (if a.toNat % 2 = 0 then b.shift.toNat / 256 else b.shift.toNat % 256) = v.toNat := by
  intro x v hx hrun hearlier
  have hne : x.run ≠ .stopped := by rw [hrun]; decide
  have hread : read8 x .host a = v := hx.read8 ha (seenBy_none hearlier .host)
  obtain ⟨heven, hodd⟩ := byteOut_shift (hostStart x 0xE0 a) a v
  have hcommand : bdmCommand x 0xE0 a data = .ok (byteOut (hostStart x 0xE0 a) a v) := by
    rw [bdmCommand, if_neg hne, ← hread, ← read8_hostStart x 0xE0 a a]
    rfl
  refine ⟨_, hcommand, hx.of_sameMemory (sameMemory_bdm x _), rfl, rfl, rfl, ?_⟩
  split_ifs with h
  · exact heven h
  · exact hodd (by omega)

end

/-! ## The step -/

/-- The queue does not see the stores of the step. -/
theorem fetchInstr_stores (s : State) (es : List Store) : fetchInstr { s with stores := es } = fetchInstr s := by
  have hbytes : fetchBytes { s with stores := es } = fetchBytes s :=
    List.map_congr_left fun x _ =>
    read8_congr (s := s) (t := { s with stores := es }) rfl rfl rfl rfl rfl rfl rfl rfl .fetch x
  rw [fetchInstr, fetchInstr, hbytes]

theorem step_commandWithin {s : State} {cut : Cut} {c : Command} {later : List (List Event)}
    (hs : s.schedule = [.commandWithin cut c] :: later) :
    step s = mapNext closeStep (boundaryWithCommand { s with schedule := later } [] cut c) := by
  simp [step, oneStep, arrivals, hs, arriveEvents, arriveEvent, stepAt]

section
variable {s : State} {k : Nat} {a : Word} {later : List (List Event)}

/-- INC of the byte stands at the PC of `s`, and the next step runs it. -/
structure RunsInc (s : State) (a : Word) : Prop where
  run : s.run = .running
  request : s.bdm.request = false
  tracing : s.bdm.tracing = false
  progress : s.progress = .none
  earlier : s.earlier = none
  noInterrupt : interruptHere s = none
  fetch : fetchInstr s = .ok (.inc (.ext a), 3)
  fresh : fetchStale s 3 = false

theorem RunsInc.boundaryAction (h : RunsInc s a) (later : List (List Event)) :
    boundaryAction { s with schedule := later } [] = .ok (.instr (.inc (.ext a)) 3) :=
  (boundaryAction_instr h.run h.request h.progress h.noInterrupt h.fetch later).trans
    (if_neg (by rw [h.fresh]; decide))

/-- The state from which INC runs inside a step, no store being made. -/
def incStart (s : State) (later : List (List Event)) : State :=
  { s with schedule := later, budget := some 1, stores := [], pc := s.pc + 3 }

theorem Holds.incStart (s : State) (k : Nat) (later : List (List Event)) :
    Holds s k (Machine.incStart s later) (memGet s.mem k) := ⟨rfl, rfl, rfl, rfl, rfl, rfl⟩

/-- How many reads of INC come before the command. -/
def readsBefore (cut : Cut) : Nat := if 0 < cut.stores then allReads else min cut.reads allReads

/-- The step of INC with a command inside it, from what `commandWithin` leaves. -/
theorem RunsInc.step_commandWithin (h : RunsInc s a) {cut : Cut} {c : Command}
    (hs : s.schedule = [.commandWithin cut c] :: later) {v seen : Byte} {sends : Bdm → Byte → Prop}
    (hleaves : IncLeaves s (Machine.incStart s later) k sends (commandWithin (exec (.inc (.ext a))) (Machine.incStart s later) c
      (readsBefore cut) cut.stores) v seen) :
    Completes (step s) fun t => t.pc = s.pc + 3 ∧ Holds s k t v ∧ sends t.bdm seen := by
  obtain ⟨t, ht, hholds, hpc, htracing, hsends⟩ := hleaves
  have haction := h.boundaryAction later
  have hwithin : actWithCommand { s with schedule := later } (.instr (.inc (.ext a)) 3) cut c = .next t := by
    rw [← ht]
    rfl
  rw [Machine.step_commandWithin hs, boundaryWithCommand, haction]
  dsimp only
  rw [hwithin]
  refine ⟨_, rfl, ?_⟩
  rw [finish, retire, retire_of_not_tracing (htracing.trans h.tracing)]
  exact ⟨hpc, hholds.of_sameMemory ⟨rfl, rfl, rfl, rfl, rfl, rfl⟩, hsends⟩

/-- The step, by where the command falls. -/
theorem RunsInc.command_cases (h : RunsInc s a) (ha : locate s a = .cell k true) {cut : Cut} {c : Command}
    (hs : s.schedule = [.commandWithin cut c] :: later) {after : Byte → Byte} {sends : Bdm → Byte → Prop}
    (hc : AccessesByte s k c after sends) :
    let old := memGet s.mem k
    Completes (step s) fun t => t.pc = s.pc + 3 ∧
      (cut.stores = 0 → cut.reads ≤ accessRank .operand → byteAt t a = some (after old + 1)) ∧
      (cut.stores = 0 → accessRank .operand < cut.reads → byteAt t a = some (old + 1)) ∧
      (0 < cut.stores → byteAt t a = some (after (old + 1))) ∧
      sends t.bdm (if cut.stores = 0 then old else old + 1) := by
  intro old
  have hp := Holds.incStart s k later
  have hrank : accessRank .operand < allReads := by decide
  by_cases hbefore : cut.stores = 0 ∧ cut.reads < allReads
  · obtain ⟨hzero, hreads⟩ := hbefore
    have hmany : readsBefore cut = cut.reads := by
      rw [readsBefore, hzero, if_neg (by decide), Nat.min_eq_left hreads.le]
    obtain ⟨t, ht, hpc, hholds, hsends⟩ := h.step_commandWithin hs
      (inc_commandBeforeStore hc hp ha h.run h.earlier (reads := readsBefore cut) (hmany ▸ hreads) cut.stores)
    have hbyte := hholds.byteAt ha
    rw [hmany] at hbyte
    rw [if_pos hzero]
    refine ⟨t, ht, hpc, fun _ hle => ?_, fun _ hlt => ?_, fun hpos => absurd hzero hpos.ne', hsends⟩
    · rwa [if_neg (by omega)] at hbyte
    · rwa [if_pos hlt] at hbyte
  · have hmany : readsBefore cut = allReads := by
      rw [readsBefore]
      split_ifs with hpos
      · rfl
      · exact Nat.min_eq_right (by omega)
    obtain ⟨t, ht, hpc, hholds, hsends⟩ := h.step_commandWithin hs
      (hmany.symm ▸ inc_commandAmongStores hc hp ha h.run h.earlier rfl cut.stores)
    have hbyte := hholds.byteAt ha
    refine ⟨t, ht, hpc, fun hzero hle => absurd ⟨hzero, hle.trans_lt hrank⟩ hbefore, fun hzero _ => ?_, fun hpos => ?_,
      hsends⟩
    · rwa [if_pos hzero] at hbyte
    · rwa [if_neg hpos.ne'] at hbyte

/-- The one store of INC. -/
theorem RunsInc.storesOf (h : RunsInc s a) (ha : locate s a = .cell k true) (later : List (List Event)) :
    storesOf { s with schedule := later } [] = [.byte a (memGet s.mem k + 1)] := by
  have hquiet : RunsInc { s with stores := [] } a :=
    { h with fetch := (fetchInstr_stores s []).trans h.fetch }
  let x : State := { s with schedule := later, stores := [], pc := s.pc + 3 }
  have hx : Holds s k x (memGet s.mem k) := ⟨rfl, rfl, rfl, rfl, rfl, rfl⟩
  have hread : read8 x .operand a = memGet s.mem k := hx.read8 ha (seenBy_none (s := x) h.earlier .operand)
  obtain ⟨t, ht, -, hstores, -⟩ := exec_inc_ext hx ha
  have hact : act (prepare { s with schedule := later, stores := [] } (.instr (.inc (.ext a)) 3))
      (.instr (.inc (.ext a)) 3) = .next t := ht
  have haction := hquiet.boundaryAction later
  rw [Machine.storesOf, haction]
  dsimp only
  rw [hact]
  dsimp only
  rw [hstores, hread]
  rfl

/-- Of what an action stores a reset inside it keeps the first stores. -/
theorem resetWithin_mem (s : State) (tags : List TagKind) (n : Nat) (src : ResetSource) :
    (resetWithin s tags n src).mem = (applyStores s ((Machine.storesOf s tags).take n)).mem :=
  (resetTaken_takeReset _ src).mem

/-- A reset inside INC. -/
theorem RunsInc.reset_cases (h : RunsInc s a) (ha : locate s a = .cell k true) {n : Nat} {src : ResetSource}
    (hs : s.schedule = [.resetWithin n src] :: later) :
    Completes (step s) fun t => memGet t.mem k = if n = 0 then memGet s.mem k else memGet s.mem k + 1 := by
  have hmem : (closeStep (resetWithin { s with schedule := later } [] n src)).mem =
      (applyStores { s with schedule := later } ((Machine.storesOf { s with schedule := later } []).take n)).mem :=
    resetWithin_mem _ [] n src
  refine ⟨_, step_resetWithin hs, ?_⟩
  beta_reduce
  rw [hmem, h.storesOf ha]
  cases n with
  | zero => rfl
  | succ n =>
    have hholds : Holds s k { s with schedule := later } (memGet s.mem k) := ⟨rfl, rfl, rfl, rfl, rfl, rfl⟩
    rw [List.take_of_length_le (by simp), if_neg n.succ_ne_zero]
    exact (hholds.write8 ha _).cell

end

/-- Settles O58: the host's write and its read are two accesses of the byte; a reset keeps the first stores. -/
theorem accessesComeBetweenTwoAccessesOfAnInstruction : Obligations.AccessesComeBetweenTwoAccessesOfAnInstruction := by
  unfold Obligations.AccessesComeBetweenTwoAccessesOfAnInstruction
  intro s cut src a data k e later hs hrun hreq htr hprog hearlier hint hfetch hfresh ha old new
  have h : RunsInc s a := ⟨hrun, hreq, htr, hprog, hearlier, hint, hfetch, hfresh⟩
  refine ⟨?_, ?_, ?_⟩
  · rintro rfl
    obtain ⟨t, ht, hpc, hfirst, hbetween, hlast, -⟩ := h.command_cases ha hs (accessesByte_write ha data)
    rw [byteIn_eq] at hfirst hlast
    exact ⟨t, ht, hpc, hfirst, hbetween, hlast⟩
  · rintro rfl
    obtain ⟨t, ht, hpc, hfirst, hbetween, hlast, hsends⟩ := h.command_cases ha hs (accessesByte_read ha data)
    refine ⟨t, ht, hpc, ?_, hsends⟩
    by_cases hzero : cut.stores = 0
    · rcases Nat.lt_or_ge (accessRank .operand) cut.reads with hr | hr
      · exact hbetween hzero hr
      · exact hfirst hzero hr
    · exact hlast (Nat.pos_of_ne_zero hzero)
  · rintro rfl
    exact h.reset_cases ha hs

end Sys2Proof.Machine
end
